-- ==== Sys2Proof/Word.lean ====
section
/-! DEFINITION. The word types of the block (30_encoding.md rules R50, R52, R56, R62). -/

namespace Sys2Proof

/-- A sample: an unsigned 8-bit integer, bit 0 least significant (R50). -/
abbrev Byte := BitVec 8

/-- The command word `CW`: the 18 input bits sampled at one step (R56). -/
abbrev CommandWord := BitVec 18

/-- The output word `OW`, used to write traces down (R62). -/
abbrev OutputWord := BitVec 16

/-- An entry of the coefficient ROM: an unsigned 17-bit integer in units of `10^-7` (R52). -/
abbrev RomEntry := BitVec 17

end Sys2Proof
end

