-- ==== Sys2Proof/Syntax.lean ====
section
/-! DEFINITION. The operations a command word selects (30_encoding.md rule R58), and the text lines in which the spec
writes programs (R63, R64). -/

namespace Sys2Proof

/-- The three operations, one constructor per row of spec/opcode_table.json. The fields a row ignores (R60) are no
part of the operation. -/
inductive Instr where
  /-- RESET, the source's construction (R121). -/
  | reset
  /-- UPDATE d, p: push one duty and one phase sample (R122). -/
  | update (d p : Byte)
  /-- HOLD: nothing changes (R123). -/
  | hold
deriving DecidableEq, Repr

/-- One line of program text (R63) or one pseudo-instruction (R64). The operands are numbers as written, so that a
line can be wrong: `WellFormed.lean` has the check. -/
inductive TextLine where
  /-- `RESET` -/
  | reset
  /-- `UPDATE d, p` -/
  | update (d p : Nat)
  /-- `HOLD` -/
  | hold
  /-- `CONSTRUCT` -/
  | construct
  /-- `REP n: UPDATE d, p` -/
  | repUpdate (n d p : Nat)
  /-- `REP n: HOLD` -/
  | repHold (n : Nat)
  /-- `ALT n: UPDATE d1, p1 / UPDATE d2, p2` -/
  | altUpdate (n d1 p1 d2 p2 : Nat)
deriving DecidableEq, Repr

end Sys2Proof
end

