-- ==== Sys2Proof/WellFormed.lean ====
section
/-! DEFINITION. Which terms of the syntax are well formed. An `Instr` carries its operands as bytes, so every term of
that type has an encoding (30_encoding.md rule R59). A text line carries numbers, and R63 makes an operand outside
0..255 a text error. -/

namespace Sys2Proof

/-- An operand as written is a sample value (R50, R63). -/
def operandInRange (v : Nat) : Bool := v ≤ 255

/-- R63, R64: `0 <= d, p <= 255` for each UPDATE a line names. A repeat count is any number. -/
def TextLine.wellFormed : TextLine → Bool
  | .reset => true
  | .update d p => operandInRange d && operandInRange p
  | .hold => true
  | .construct => true
  | .repUpdate _ d p => operandInRange d && operandInRange p
  | .repHold _ => true
  | .altUpdate _ d1 p1 d2 p2 =>
    operandInRange d1 && operandInRange p1 && operandInRange d2 && operandInRange p2

end Sys2Proof
end

