-- ==== Sys2Proof/Decode.lean ====
section
/-! DEFINITION. The input ports and the command word (30_encoding.md rules R54 to R57), the operation map (R58, R60),
the decoder, and after it the encoder. -/

namespace Sys2Proof

/-- The input ports sampled at one step (R54). `clk` only marks the steps and is not modelled, as R54 says. -/
structure Inputs where
  rst : Bool
  en : Bool
  dutyIn : Byte
  phaseIn : Byte
deriving DecidableEq, Repr

/-- R56: `CW = rst ++ en ++ duty_in ++ phase_in`. -/
def Inputs.word (i : Inputs) : CommandWord :=
  BitVec.ofBool i.rst ++ BitVec.ofBool i.en ++ i.dutyIn ++ i.phaseIn

/-- `CW[17]`, the reset request (R56). -/
def rstBit (cw : CommandWord) : Bool := cw.getLsbD 17

/-- `CW[16]`, the sample strobe (R56). -/
def enBit (cw : CommandWord) : Bool := cw.getLsbD 16

/-- `CW[15:8]`, the duty operand, taken without any change (R56, R57). -/
def dutyField (cw : CommandWord) : Byte := cw.extractLsb' 8 8

/-- `CW[7:0]`, the phase operand, taken without any change (R56, R57). -/
def phaseField (cw : CommandWord) : Byte := cw.extractLsb' 0 8

/-- The ports a command word was sampled from (R56 read the other way). -/
def inputsOf (cw : CommandWord) : Inputs :=
  ⟨rstBit cw, enBit cw, dutyField cw, phaseField cw⟩

/-- R58: the operation a command word selects. Total: no word is illegal or reserved (R59). `rst` has priority over
`en` (R58, R153). -/
def decode (cw : CommandWord) : Instr :=
  if rstBit cw then .reset
  else if enBit cw then .update (dutyField cw) (phaseField cw)
  else .hold

/-- A row of the operation map of R58: `w` selects the row when `w AND mask = match`. -/
structure Row where
  mnemonic : String
  mask : CommandWord
  pattern : CommandWord
deriving DecidableEq, Repr

/-- R58's RESET row. -/
def resetRow : Row := ⟨"RESET", 0x20000#18, 0x20000#18⟩

/-- R58's UPDATE row. -/
def updateRow : Row := ⟨"UPDATE", 0x30000#18, 0x10000#18⟩

/-- R58's HOLD row. -/
def holdRow : Row := ⟨"HOLD", 0x30000#18, 0x00000#18⟩

/-- The whole operation map (R58). -/
def rows : List Row := [resetRow, updateRow, holdRow]

/-- R58: "A word `w` selects a row when `(w AND mask) = match`." -/
def Row.selects (r : Row) (w : CommandWord) : Bool := decide (w &&& r.mask = r.pattern)

/-- The row an operation belongs to. -/
def rowOf : Instr → Row
  | .reset => resetRow
  | .update _ _ => updateRow
  | .hold => holdRow

/-- Why a number is no command word. -/
inductive DecodeError where
  /-- Raised by `decodeNumber` for a number that needs more than 18 bits: there is one format and one length (R56). Safe:
  no such word can reach the ports. -/
  | widerThanCommandWord
deriving DecidableEq, Repr

/-- Decoding of a number: one format, one length of 18 bits (R56, R61). -/
def decodeNumber (w : Nat) : Except DecodeError Instr :=
  if w < 2 ^ 18 then .ok (decode (BitVec.ofNat 18 w)) else .error .widerThanCommandWord

/-- The decoder on a word numbered as spec/opcode_table.json numbers it: `nbits` low bits of `w`, the bits above them
zero. -/
def decodeTableWord (nbits w : Nat) : Option Instr :=
  match decodeNumber (w % 2 ^ nbits) with
  | .ok i => some i
  | .error _ => none

/-- The canonical command word of an operation (R58, R60, R63): the ignored fields are zero. -/
def encode : Instr → CommandWord
  | .reset => Inputs.word ⟨true, false, 0, 0⟩
  | .update d p => Inputs.word ⟨false, true, d, p⟩
  | .hold => Inputs.word ⟨false, false, 0, 0⟩

/-- The bits of its command words that an operation does not ignore (R60): `CW[17]` for RESET, `CW[17:16]` for HOLD, all
for UPDATE. -/
def significantBits : Instr → CommandWord
  | .reset => 0x20000#18
  | .update _ _ => 0x3FFFF#18
  | .hold => 0x30000#18

/-- R62: `OW = duty_out ++ phase_out`. -/
def outputWord (o : Byte × Byte) : OutputWord := o.1 ++ o.2

end Sys2Proof
end

