-- ==== Sys2Proof/Config.lean ====
section
/-! DEFINITION. The parameters of 00_scope.md rule R3, fixed for every instance (R2), and the three parameters the
spec leaves open (00_scope.md section 4). -/

namespace Sys2Proof.Config

/-- Taps, and length of each delay line (R3 `N`). -/
abbrev taps : Nat := 199

/-- Bits of one sample (R3 `W`). -/
abbrev sampleBits : Nat := 8

/-- Parallel streams, duty and phase (R3 `NSTREAM`). -/
abbrev streams : Nat := 2

/-- Index of the centre tap, and group delay in ticks (R3 `MID`). -/
abbrev mid : Nat := 99

/-- The ROM holds each tap times this (R3 `SCALE`). -/
abbrev scale : Nat := 10000000

/-- The rounding offset (R3 `HALF`). -/
abbrev half : Nat := 5000000

/-- The largest ROM entry (R3 `KMAX`). -/
abbrev kMax : Nat := 120250

/-- The sum of the ROM entries (R3 `SUMK`). -/
abbrev sumK : Nat := 9999998

/-- The largest accumulator value (R3 `SMAX`). -/
abbrev sMax : Nat := 2549999490

/-- Bits of one ROM entry (R3 `W_K`). -/
abbrev romBits : Nat := 17

/-- Bits of one pre-adder sum (R3 `W_PRE`). -/
abbrev preBits : Nat := 9

/-- Bits of one folded product (R3 `W_PROD`). -/
abbrev prodBits : Nat := 26

/-- Bits of the accumulator (R3 `W_ACC`). -/
abbrev accBits : Nat := 32

/-- Bits of the command word (R3 `W_CW`). -/
abbrev commandBits : Nat := 18

/-- `NUM_CHANNELS`, how many instances the surrounding system holds: left open (92_eei_decisions.md D17). -/
opaque numChannels : Nat

/-- `TICK_RATE`, UPDATE steps per second: left open, and no rule depends on it (D21, R178). -/
opaque tickRate : Nat

/-- `LATENCY_CYCLES`, clock cycles of an UPDATE: left open, and no rule depends on it (D11, R178). -/
opaque latencyCycles : Nat

end Sys2Proof.Config
end

