-- ==== Sys2Proof/Machine/Rom.lean ====
section
/-! DEFINITION. The coefficient ROM, 20_memory.md rule R33: the printed seven-place taps times `10^7`. -/

namespace Sys2Proof.Machine

/-- R33, row 0. -/
def romRow0 : List Nat := [0, 11, 44, 98, 175, 275, 397, 543, 714, 908]

/-- R33, row 10. -/
def romRow10 : List Nat := [1129, 1375, 1649, 1951, 2282, 2644, 3037, 3462, 3921, 4415]

/-- R33, row 20. -/
def romRow20 : List Nat := [4945, 5512, 6117, 6762, 7448, 8176, 8947, 9762, 10623, 11529]

/-- R33, row 30. -/
def romRow30 : List Nat := [12483, 13484, 14534, 15633, 16781, 17980, 19228, 20528, 21878, 23278]

/-- R33, row 40. -/
def romRow40 : List Nat := [24729, 26229, 27779, 29378, 31025, 32718, 34457, 36241, 38068, 39936]

/-- R33, row 50. -/
def romRow50 : List Nat := [41844, 43789, 45771, 47786, 49831, 51906, 54006, 56129, 58273, 60434]

/-- R33, row 60. -/
def romRow60 : List Nat := [62608, 64793, 66986, 69182, 71379, 73572, 75758, 77933, 80093, 82235]

/-- R33, row 70. -/
def romRow70 : List Nat := [84354, 86447, 88510, 90538, 92529, 94477, 96380, 98234, 100035, 101778]

/-- R33, row 80. -/
def romRow80 : List Nat := [103462, 105082, 106635, 108117, 109526, 110859, 112113, 113286, 114373, 115375]

/-- R33, row 90. -/
def romRow90 : List Nat := [116287, 117109, 117839, 118474, 119015, 119458, 119804, 120052, 120200, 120250]

/-- R33, row 100. -/
def romRow100 : List Nat := [120200, 120052, 119804, 119458, 119015, 118474, 117839, 117109, 116287, 115375]

/-- R33, row 110. -/
def romRow110 : List Nat := [114373, 113286, 112113, 110859, 109526, 108117, 106635, 105082, 103462, 101778]

/-- R33, row 120. -/
def romRow120 : List Nat := [100035, 98234, 96380, 94477, 92529, 90538, 88510, 86447, 84354, 82235]

/-- R33, row 130. -/
def romRow130 : List Nat := [80093, 77933, 75758, 73572, 71379, 69182, 66986, 64793, 62608, 60434]

/-- R33, row 140. -/
def romRow140 : List Nat := [58273, 56129, 54006, 51906, 49831, 47786, 45771, 43789, 41844, 39936]

/-- R33, row 150. -/
def romRow150 : List Nat := [38068, 36241, 34457, 32718, 31025, 29378, 27779, 26229, 24729, 23278]

/-- R33, row 160. -/
def romRow160 : List Nat := [21878, 20528, 19228, 17980, 16781, 15633, 14534, 13484, 12483, 11529]

/-- R33, row 170. -/
def romRow170 : List Nat := [10623, 9762, 8947, 8176, 7448, 6762, 6117, 5512, 4945, 4415]

/-- R33, row 180. -/
def romRow180 : List Nat := [3921, 3462, 3037, 2644, 2282, 1951, 1649, 1375, 1129, 908]

/-- R33, row 190. -/
def romRow190 : List Nat := [714, 543, 397, 275, 175, 98, 44, 11, 0]

/-- R33: the 199 integers, in index order. The two end taps, printed `-0.0000000`, are 0 (R37, log entry 6). -/
def romList : List Nat :=
  romRow0 ++ romRow10 ++ romRow20 ++ romRow30 ++ romRow40 ++ romRow50 ++ romRow60 ++ romRow70 ++ romRow80 ++ romRow90 ++
  romRow100 ++ romRow110 ++ romRow120 ++ romRow130 ++ romRow140 ++ romRow150 ++ romRow160 ++ romRow170 ++ romRow180 ++
  romRow190

theorem romList_length : romList.length = 199 := by decide +kernel

/-- The ROM: 199 unsigned entries of 17 bits (R30, R52), constant for the life of an instance (R31). -/
def rom : Vector RomEntry 199 :=
  ⟨(romList.map (BitVec.ofNat 17)).toArray, by rw [List.size_toArray, List.length_map, romList_length]⟩

/-- `K[i]`: reading one ROM entry (R30). -/
def K (i : Fin 199) : RomEntry := rom[i]

/-- `C[i]`, the real-valued tap the source prints: `C[i] = K[i] / 10^7` (R33). -/
def tap (i : Fin 199) : ℚ := ((K i).toNat : ℚ) / Config.scale

end Sys2Proof.Machine
end

