-- ==== Sys2Proof/Machine/State.lean ====
section
/-! DEFINITION. The state of one filter instance (10_state.md): two delay lines, and beside them the command list the
host has presented. -/

namespace Sys2Proof.Machine

/-- A delay line: 199 samples, index 0 the oldest and index 198 the newest (R10, R11, R13). -/
abbrev Line := Vector Byte 199

/-- The line with every element zero. -/
def Line.zero : Line := Vector.replicate 199 0#8

/-- One filter instance. The outputs, the accumulators and the coefficient ROM are no state (R17, R19, R31), and there
is no program counter, flag, mode or control register (R14 to R16). -/
structure State where
  /-- The duty delay line `D` (R10). -/
  duty : Line
  /-- The phase delay line `P` (R11). -/
  phase : Line
  /-- DESIGN CHOICE (log entry 1): the model's own field, the command words the host has presented and the instance has
  not taken yet, oldest first (R6's "command list", R42's order). -/
  commands : List CommandWord
deriving DecidableEq, Repr

/-- The fault type is empty: "No operation of the block raises an exception, a fault, an error code or an error
output, on any input and in any state" (R150). -/
inductive Fault where
deriving DecidableEq, Repr

/-- Why a step is refused. No arm of `exec` raises one: every operation has its meaning. -/
inductive Refusal where
  /-- Raised by `exec` for an instruction the model gives no meaning yet (none on this hardware). Safe. -/
  | notModelled (mnemonic : String)
deriving DecidableEq, Repr

/-- The state after RESET, which is the launch state of every run (R20, R21, R173): all 398 elements zero. No command
has been presented yet (log entry 1). -/
def State.reset : State := ⟨Line.zero, Line.zero, []⟩

end Sys2Proof.Machine
end

