-- ==== Sys2Proof/Machine/MultiplierTree.lean ====
section
/-! DEFINITION. Sub-block coefficient_multiplier_tree, 41_coefficient_multiplier_tree.md. The normative function is MAC
(R80, R83). The pre-adders, the multipliers and the adder tree follow at the widths the spec gives them, so that their
equality with MAC can be stated. -/

namespace Sys2Proof.Machine

/-- MAC (R83): the exact inner product of a line with the ROM, in units of `10^-7`. -/
def mac (L : Line) : Nat := ∑ i : Fin 199, L[i].toNat * (K i).toNat

/-- The partner `198 - i` of an index (R34, R81). -/
def mirror (i : Fin 199) : Fin 199 := ⟨198 - i.val, by omega⟩

/-- PREADD (R81): the 9-bit sum of a symmetric pair, `i` in 0..98. -/
def preadd (L : Line) (i : Fin 99) : BitVec 9 :=
  L[i.val].setWidth 9 + L[198 - i.val].setWidth 9

/-- PROD for a folded pair (R82): a 26-bit product, `i` in 0..98. -/
def prodPair (L : Line) (i : Fin 99) : BitVec 26 :=
  (preadd L i).setWidth 26 * (K ⟨i.val, by omega⟩).setWidth 26

/-- PROD for the centre tap (R82): a 25-bit product, index 99. -/
def prodCentre (L : Line) : BitVec 25 := L[99].setWidth 25 * (K 99).setWidth 25

/-- The 100 multipliers' results, each widened to the accumulator (R80, R82). -/
def prodTerm (L : Line) (i : Fin 100) : BitVec 32 :=
  if h : i.val < 99 then (prodPair L ⟨i.val, h⟩).setWidth 32 else (prodCentre L).setWidth 32

/-- An unfolded product `L[i] * K[i]`, 25 bits (R85), widened to the accumulator. -/
def plainTerm (L : Line) (i : Fin 199) : BitVec 32 :=
  (L[i].setWidth 25 * (K i).setWidth 25).setWidth 32

/-- An adder tree of any shape over terms named by `α` (R80, R87): a chain, a balanced tree, any order. -/
inductive AdderTree (α : Type) where
  | leaf (a : α)
  | add (l r : AdderTree α)
deriving DecidableEq, Repr

/-- What a tree of 32-bit adders computes from its terms (R80, `W_ACC` of R3). -/
def AdderTree.eval {α : Type} (f : α → BitVec 32) : AdderTree α → BitVec 32
  | .leaf a => f a
  | .add l r => l.eval f + r.eval f

/-- The terms a tree adds, left to right. -/
def AdderTree.leaves {α : Type} : AdderTree α → List α
  | .leaf a => [a]
  | .add l r => l.leaves ++ r.leaves

end Sys2Proof.Machine
end

