-- ==== Sys2Proof/Machine/Quantizer.lean ====
section
/-! DEFINITION. Sub-block quantizer_saturator, 42_quantizer_saturator.md, on all integers as the spec defines it. -/

namespace Sys2Proof.Machine

/-- ROUND (R100): the integer nearest to `S / 10^7`, halves away from zero. Division by the positive `scale` is the
floored one. -/
def roundHalfAway (S : Int) : Int :=
  if 0 ≤ S then (S + Config.half) / Config.scale else -((-S + Config.half) / Config.scale)

/-- CLAMP (R101): duty saturation to 0..255. -/
def clamp (z : Int) : Byte :=
  if z < 0 then 0#8 else if 255 < z then 255#8 else BitVec.ofNat 8 z.toNat

/-- WRAP (R102): phase reduction by the floored modulus 256. -/
def wrap (z : Int) : Byte := BitVec.ofNat 8 (z % 256).toNat

/-- QDUTY (R103). Rounding comes before the clamp (R105). -/
def qduty (S : Int) : Byte := clamp (roundHalfAway S)

/-- QPHASE (R104). -/
def qphase (S : Int) : Byte := wrap (roundHalfAway S)

end Sys2Proof.Machine
end

