-- ==== Sys2Proof/Machine/Shifter.lean ====
section
/-! DEFINITION. Sub-block delay_line_shifter, 40_delay_line_shifter.md: SHIFT and CLEAR, the only functions that write a
delay line (R72). -/

namespace Sys2Proof.Machine

/-- SHIFT (R70): "Append `d_new` to the newest end of `D`; drop the oldest element." -/
def shift (L : Line) (x : Byte) : Line := ⟨(L.toList.tail ++ [x]).toArray, by simp⟩

/-- CLEAR (R71): every element 0, whatever the line held. -/
def clearLine (_ : Line) : Line := Line.zero

end Sys2Proof.Machine
end

