-- ==== Sys2Proof/Machine/Ops.lean ====
section
/-! DEFINITION. The operations over the state that the meanings and the step are made of. There is no exception to take
and none to return from (60_exceptions.md rules R150, R154, R155), so there is no such operation here. -/

namespace Sys2Proof.Machine

/-- The duty half of OUT (R120). -/
def dutyOut (D : Line) : Byte := qduty (mac D)

/-- The phase half of OUT (R120). -/
def phaseOut (P : Line) : Byte := qphase (mac P)

/-- OUT (R120): `(duty_out, phase_out)`, which the ports show at all times (R19). -/
def out (s : State) : Byte × Byte := (dutyOut s.duty, phaseOut s.phase)

/-- The state change of UPDATE: one SHIFT of each line (R122). -/
def State.pushSamples (s : State) (d p : Byte) : State :=
  { s with duty := shift s.duty d, phase := shift s.phase p }

/-- The state change of RESET: CLEAR of both lines (R121). -/
def State.clearLines (s : State) : State :=
  { s with duty := clearLine s.duty, phase := clearLine s.phase }

/-- The host's whole command list (R6). -/
def State.withCommands (s : State) (ws : List CommandWord) : State := { s with commands := ws }

/-- The host issues one operation, to be taken after those it issued before (R5, R42). -/
def State.issue (s : State) (i : Instr) : State := { s with commands := s.commands ++ [encode i] }

/-- A command word presented as the very next one. -/
def State.presentNext (s : State) (w : CommandWord) : State := { s with commands := w :: s.commands }

/-- What the next step runs, and the state it runs it in: the oldest command presented is taken off the list (R42). With
no command presented the ports select HOLD, whose source spelling is "(no call made)" (R63; log entry 2). -/
def fetch (s : State) : Instr × State :=
  match s.commands with
  | [] => (.hold, s)
  | w :: rest => (decode w, { s with commands := rest })

end Sys2Proof.Machine
end

