-- ==== Sys2Proof/Machine/Operations.lean ====
section
/-! DEFINITION. The meanings of the three operations, 43_symmetric_fir_filter.md rules R121 to R123. The outputs after a
step are `out` of the state it answers (R19, R120). None can fail (R150). -/

namespace Sys2Proof.Machine

/-- RESET (R121, R170, R171): both lines cleared; nothing else is state. -/
def execReset (s : State) : Host.Outcome State Fault Refusal := .next s.clearLines

/-- UPDATE d, p (R122): both samples are pushed, and the outputs are those of the lines that contain them. -/
def execUpdate (d p : Byte) (s : State) : Host.Outcome State Fault Refusal := .next (s.pushSamples d p)

/-- HOLD (R123): nothing changes. -/
def execHold (s : State) : Host.Outcome State Fault Refusal := .next s

end Sys2Proof.Machine
end

