-- ==== Sys2Proof/Machine/Dispatch.lean ====
section
/-! DEFINITION. One arm per operation of R58. -/

namespace Sys2Proof.Machine

def exec (i : Instr) (s : State) : Host.Outcome State Fault Refusal :=
  match i with
  | .reset => Sys2Proof.Machine.execReset s
  | .update d p => Sys2Proof.Machine.execUpdate d p s
  | .hold => Sys2Proof.Machine.execHold s

end Sys2Proof.Machine
end

