-- ==== Sys2Proof/Machine/Step.lean ====
section
/-! DEFINITION. One step of an instance: the oldest command presented is taken and run (20_memory.md rule R42,
43_symmetric_fir_filter.md rule R124). -/

namespace Sys2Proof.Machine

/-- One step (R124): `fetch` says which operation runs and in which state. -/
def step (s : State) : Host.Outcome State Fault Refusal := exec (fetch s).1 (fetch s).2

/-- `s` with the word numbered as spec/opcode_table.json numbers it presented as the very next command. -/
def State.withFetchWord (s : State) (nbits w : Nat) : State :=
  s.presentNext (BitVec.ofNat 18 (w % 2 ^ nbits))

end Sys2Proof.Machine
end

