-- ==== Sys2Proof/Machine/Run.lean ====
section
/-! DEFINITION. Runs and what can be observed of them (00_scope.md rule R6), the step function as R124 writes it, and the
sample history that the closed form of R125 speaks of. -/

namespace Sys2Proof.Machine

/-- The output pairs of the next `k` steps, one after each step (R6). -/
def trace : Nat → State → List (Byte × Byte)
  | 0, _ => []
  | k + 1, s =>
    match step s with
    | .next t => out t :: trace k t
    | .fault _ => []
    | .refused _ => []

/-- The observation of a run (R6): it ends when the command list is exhausted. -/
def observe (s : State) : List (Byte × Byte) := trace s.commands.length s

/-- The step function, written as R124 writes it: from the two lines and a command word to the next lines and the
outputs. -/
def stepWord (lines : Line × Line) (cw : CommandWord) : (Line × Line) × (Byte × Byte) :=
  let next :=
    if rstBit cw then (clearLine lines.1, clearLine lines.2)
    else if enBit cw then (shift lines.1 (dutyField cw), shift lines.2 (phaseField cw))
    else lines
  (next, (dutyOut next.1, phaseOut next.2))

/-- A run of R124: the iteration of the step function over a command list, with the outputs it returns. -/
def runWords (lines : Line × Line) : List CommandWord → (Line × Line) × List (Byte × Byte)
  | [] => (lines, [])
  | w :: ws =>
    let r := stepWord lines w
    let q := runWords r.1 ws
    (q.1, r.2 :: q.2)

/-- How one operation changes the list of operand pairs pushed since the last RESET, oldest first (R125). -/
def advance (h : List (Byte × Byte)) : Instr → List (Byte × Byte)
  | .reset => []
  | .update d p => h ++ [(d, p)]
  | .hold => h

/-- The operand pairs of the UPDATEs since the last RESET of a command list, the list `h` coming before it. -/
def history (h : List (Byte × Byte)) : List CommandWord → List (Byte × Byte)
  | [] => h
  | w :: ws => history (advance h (decode w)) ws

/-- `x_k`: the sample of tick `k`, with `x_k = 0` for `k < 0` (R74, R125). -/
def sampleAt (xs : List Byte) (k : Int) : Byte := if k < 0 then 0#8 else xs.getD k.toNat 0#8

/-- R74: after the UPDATE of tick `n`, `L[i] = x_(n - 198 + i)`; here `n` is the last tick of the history. -/
def Window (xs : List Byte) (L : Line) : Prop :=
  ∀ i : Fin 199, L[i] = sampleAt xs ((xs.length : Int) - 1 - 198 + i.val)

/-- The convolution sum of R125: `sum_(j=0..198) K[j] * x_(n - 198 + j)`. -/
def convolution (xs : List Byte) (n : Int) : Nat :=
  ∑ j : Fin 199, (K j).toNat * (sampleAt xs (n - 198 + j.val)).toNat

end Sys2Proof.Machine
end

