-- ==== Sys2Proof/Machine/Bank.lean ====
section
/-! DEFINITION. Several instances side by side, one per channel (10_state.md rule R22, 60_exceptions.md rule R157; log
entry 10). They share no mutable state; the ROM they may share is a constant (R45). -/

namespace Sys2Proof.Machine

/-- `n` instances, each with its own delay lines (R22). -/
abbrev Bank (n : Nat) := Vector State n

/-- The surrounding system's bank, with the open number of channels (92_eei_decisions.md D17). -/
abbrev ChannelBank := Bank Config.numChannels

/-- Instance `k` takes one step; R157 lets the instances be stepped in any interleaving. -/
def Bank.step {n : Nat} (b : Bank n) (k : Fin n) : Host.Outcome (Bank n) Fault Refusal :=
  match Machine.step b[k] with
  | .next t => .next (b.set k t)
  | .fault f => .fault f
  | .refused r => .refused r

/-- The bank after an interleaving of steps, given as the instances' numbers in order. -/
def Bank.run {n : Nat} (b : Bank n) : List (Fin n) → Host.Outcome (Bank n) Fault Refusal
  | [] => .next b
  | k :: ks =>
    match b.step k with
    | .next b' => Bank.run b' ks
    | .fault f => .fault f
    | .refused r => .refused r

end Sys2Proof.Machine
end

