-- ==== Sys2Proof/Machine/RingBuffer.lean ====
section
/-! DEFINITION. The ring-buffer implementation of a delay line that 40_delay_line_shifter.md rule R73 describes, and the
block built on it. It is an implementation to be compared with the machine (10_state.md rule R18), no part of it. -/

namespace Sys2Proof.Machine

/-- A circular store with a head index at the oldest element (R73). -/
structure Ring where
  store : Vector Byte 199
  head : Fin 199
deriving DecidableEq, Repr

/-- The architectural element `L[i] = B[(h + i) mod 199]` (R73). Addition in `Fin 199` is modulo 199. -/
def Ring.elem (b : Ring) (i : Fin 199) : Byte := b.store[b.head + i]

/-- R73: `B[h] <- x; h <- (h + 1) mod 199`. -/
def Ring.push (b : Ring) (x : Byte) : Ring := ⟨b.store.set b.head x, b.head + 1⟩

/-- R73: CLEAR zeroes the store; the head after it is immaterial, so it is an argument. -/
def Ring.cleared (h : Fin 199) : Ring := ⟨Vector.replicate 199 0#8, h⟩

/-- The ring shows this architectural line. -/
def Ring.Shows (b : Ring) (L : Line) : Prop := ∀ i : Fin 199, b.elem i = L[i]

/-- A filter that keeps its two lines in rings. -/
structure RingFilter where
  duty : Ring
  phase : Ring
deriving DecidableEq, Repr

/-- The outputs of the ring filter: OUT of the elements it shows. -/
def RingFilter.out (r : RingFilter) : Byte × Byte :=
  (qduty (∑ i : Fin 199, (r.duty.elem i).toNat * (K i).toNat : Nat),
   qphase (∑ i : Fin 199, (r.phase.elem i).toNat * (K i).toNat : Nat))

/-- The ring filter's step on a command word; `h` is wherever its CLEAR leaves the two heads. -/
def RingFilter.step (h : Fin 199 × Fin 199) (r : RingFilter) (w : CommandWord) : RingFilter :=
  match decode w with
  | .reset => ⟨Ring.cleared h.1, Ring.cleared h.2⟩
  | .update d p => ⟨r.duty.push d, r.phase.push p⟩
  | .hold => r

/-- The outputs of the ring filter after each command word. -/
def RingFilter.run (h : Fin 199 × Fin 199) (r : RingFilter) : List CommandWord → List (Byte × Byte)
  | [] => []
  | w :: ws => (r.step h w).out :: (r.step h w).run h ws

end Sys2Proof.Machine
end

