-- ==== Sys2Proof/Machine/Text.lean ====
section
/-! DEFINITION. The text syntax of programs (30_encoding.md rules R63, R64): what a line expands to, its command words,
its spelling, and reading it from characters. The character-level conventions are log entry 11. -/

namespace Sys2Proof

/-- Why a text is no program. -/
inductive TextError where
  /-- The characters are no line of R63 or R64. Safe: no command word results. -/
  | notALine
  /-- An operand outside 0..255: "a text error (there is no encoding for it), not a run-time fault" (R63). Safe. -/
  | operandOutOfRange
deriving DecidableEq, Repr

/-- The UPDATE of two operands in range (R57, R63). -/
def updateOf (d p : Nat) : Instr := .update (BitVec.ofNat 8 d) (BitVec.ofNat 8 p)

/-- R64's ALT: `n` operations in all, alternating, the first form first. -/
def alternate (a b : Instr) : Nat → List Instr
  | 0 => []
  | n + 1 => a :: alternate b a n

/-- What a well-formed line stands for (R63, R64). -/
def TextLine.expand : TextLine → List Instr
  | .reset => [.reset]
  | .update d p => [updateOf d p]
  | .hold => [.hold]
  | .construct => [.reset]
  | .repUpdate n d p => List.replicate n (updateOf d p)
  | .repHold n => List.replicate n .hold
  | .altUpdate n d1 p1 d2 p2 => alternate (updateOf d1 p1) (updateOf d2 p2) n

/-- The command words of one line, or the text error (R63). -/
def TextLine.assemble (t : TextLine) : Except TextError (List CommandWord) :=
  if t.wellFormed then .ok (t.expand.map encode) else .error .operandOutOfRange

/-- The command words of a program, one command per line (R63). -/
def assembleProgram : List TextLine → Except TextError (List CommandWord)
  | [] => .ok []
  | t :: ts =>
    match t.assemble with
    | .error e => .error e
    | .ok ws =>
      match assembleProgram ts with
      | .error e => .error e
      | .ok vs => .ok (ws ++ vs)

/-- The keyword `RESET`. -/
def kwReset : List Char := ['R', 'E', 'S', 'E', 'T']

/-- The keyword `UPDATE`. -/
def kwUpdate : List Char := ['U', 'P', 'D', 'A', 'T', 'E']

/-- The keyword `HOLD`. -/
def kwHold : List Char := ['H', 'O', 'L', 'D']

/-- The keyword `CONSTRUCT`. -/
def kwConstruct : List Char := ['C', 'O', 'N', 'S', 'T', 'R', 'U', 'C', 'T']

/-- The keyword `REP`. -/
def kwRep : List Char := ['R', 'E', 'P']

/-- The keyword `ALT`. -/
def kwAlt : List Char := ['A', 'L', 'T']

/-- The decimal digit of a number below ten. -/
def digitChar (v : Nat) : Char := Char.ofNat (48 + v)

/-- Decimal digits, most significant first; `fuel` bounds their number. -/
def decimalWithin : Nat → Nat → List Char
  | 0, n => [digitChar (n % 10)]
  | fuel + 1, n => if n < 10 then [digitChar n] else decimalWithin fuel (n / 10) ++ [digitChar (n % 10)]

/-- An operand or a count in decimal (R63). -/
def decimal (n : Nat) : List Char := decimalWithin n n

/-- `UPDATE d, p` as R63 spells it. -/
def spellUpdate (d p : Nat) : List Char := kwUpdate ++ [' '] ++ decimal d ++ [',', ' '] ++ decimal p

/-- A line as R63 and R64 spell it. -/
def TextLine.spell : TextLine → List Char
  | .reset => kwReset
  | .update d p => spellUpdate d p
  | .hold => kwHold
  | .construct => kwConstruct
  | .repUpdate n d p => kwRep ++ [' '] ++ decimal n ++ [':', ' '] ++ spellUpdate d p
  | .repHold n => kwRep ++ [' '] ++ decimal n ++ [':', ' '] ++ kwHold
  | .altUpdate n d1 p1 d2 p2 =>
    kwAlt ++ [' '] ++ decimal n ++ [':', ' '] ++ spellUpdate d1 p1 ++ [' ', '/', ' '] ++ spellUpdate d2 p2

/-- The value of a decimal digit. -/
def decimalValue (c : Char) : Option Nat :=
  if 48 ≤ c.toNat ∧ c.toNat ≤ 57 then some (c.toNat - 48) else none

/-- The value of a hexadecimal digit, in either case. -/
def hexValue (c : Char) : Option Nat :=
  if 48 ≤ c.toNat ∧ c.toNat ≤ 57 then some (c.toNat - 48)
  else if 65 ≤ c.toNat ∧ c.toNat ≤ 70 then some (c.toNat - 55)
  else if 97 ≤ c.toNat ∧ c.toNat ≤ 102 then some (c.toNat - 87)
  else none

/-- A positional numeral, read on from the value `acc`. -/
def numeralFrom (base : Nat) (digit : Char → Option Nat) (acc : Nat) : List Char → Option Nat
  | [] => some acc
  | c :: cs =>
    match digit c with
    | some v => numeralFrom base digit (acc * base + v) cs
    | none => none

/-- A number in decimal, or in hexadecimal after `0x` (R63). -/
def number : List Char → Option Nat
  | [] => none
  | ['0', 'x'] => none
  | '0' :: 'x' :: c :: cs => numeralFrom 16 hexValue 0 (c :: cs)
  | c :: cs => numeralFrom 10 decimalValue 0 (c :: cs)

/-- The characters keywords and numbers are made of. -/
def isWordChar (c : Char) : Bool :=
  (48 ≤ c.toNat && c.toNat ≤ 57) || (65 ≤ c.toNat && c.toNat ≤ 90) || (97 ≤ c.toNat && c.toNat ≤ 122)

/-- A lexeme, if there is one. -/
def flush (acc : List Char) : List (List Char) := if acc.isEmpty then [] else [acc]

/-- The lexemes of a line: words, and every other character but space and tab by itself. -/
def lexFrom (acc : List Char) : List Char → List (List Char)
  | [] => flush acc
  | c :: cs =>
    if isWordChar c then lexFrom (acc ++ [c]) cs
    else if c.toNat = 32 ∨ c.toNat = 9 then flush acc ++ lexFrom [] cs
    else flush acc ++ [c] :: lexFrom [] cs

/-- `UPDATE d, p` at the head of the lexemes, with what follows it. -/
def readUpdate : List (List Char) → Option (Nat × Nat × List (List Char))
  | kw :: d :: comma :: p :: rest =>
    if kw = kwUpdate ∧ comma = [','] then
      match number d, number p with
      | some d, some p => some (d, p, rest)
      | _, _ => none
    else none
  | _ => none

/-- What `REP n:` repeats (R64). -/
def readRep (n : Nat) (body : List (List Char)) : Option TextLine :=
  if body = [kwHold] then some (.repHold n)
  else
    match readUpdate body with
    | some (d, p, []) => some (.repUpdate n d p)
    | _ => none

/-- What `ALT n:` alternates (R64). -/
def readAlt (n : Nat) (body : List (List Char)) : Option TextLine :=
  match readUpdate body with
  | some (d1, p1, slash :: rest) =>
    if slash = ['/'] then
      match readUpdate rest with
      | some (d2, p2, []) => some (.altUpdate n d1 p1 d2 p2)
      | _ => none
    else none
  | _ => none

/-- A line from its lexemes. -/
def readLexemes (ls : List (List Char)) : Option TextLine :=
  if ls = [kwReset] then some .reset
  else if ls = [kwHold] then some .hold
  else if ls = [kwConstruct] then some .construct
  else
    match readUpdate ls with
    | some (d, p, []) => some (.update d p)
    | some _ => none
    | none =>
      match ls with
      | kw :: n :: colon :: body =>
        if colon = [':'] then
          match number n with
          | some n => if kw = kwRep then readRep n body else if kw = kwAlt then readAlt n body else none
          | none => none
        else none
      | _ => none

/-- A line from its characters. -/
def readLine (cs : List Char) : Except TextError TextLine :=
  match readLexemes (lexFrom [] cs) with
  | some t => .ok t
  | none => .error .notALine

/-- The lines of a text, split at line feeds. -/
def linesOf (acc : List Char) : List Char → List (List Char)
  | [] => [acc]
  | c :: cs => if c.toNat = 10 then acc :: linesOf [] cs else linesOf (acc ++ [c]) cs

/-- One command per line (R63); a line of no lexemes stands for nothing. -/
def readLines : List (List Char) → Except TextError (List TextLine)
  | [] => .ok []
  | cs :: rest =>
    if (lexFrom [] cs).isEmpty then readLines rest
    else
      match readLine cs, readLines rest with
      | .ok t, .ok ts => .ok (t :: ts)
      | .error e, _ => .error e
      | _, .error e => .error e

/-- The command words of a program text. -/
def readProgram (cs : List Char) : Except TextError (List CommandWord) :=
  match readLines (linesOf [] cs) with
  | .ok ts => assembleProgram ts
  | .error e => .error e

end Sys2Proof
end

