-- ==== Sys2Proof/Safety.lean ====
section
/-! DEFINITION. What the claims call safe: a step that answers a next state (60_exceptions.md rule R150), and where the
samples in a state come from (10_state.md rule R12). -/

namespace Sys2Proof.Machine

/-- A step is safe when it answers a next state: neither a fault nor a refusal. -/
def Safe (s : State) : Prop := ∃ t, step s = .next t

/-- Every operand a command word would push satisfies `Q`. -/
def OperandsIn (Q : Byte → Prop) (w : CommandWord) : Prop :=
  ∀ d p, decode w = .update d p → Q d ∧ Q p

/-- Every sample in the two lines, and every sample still to be pushed, satisfies `Q`. -/
def State.SamplesIn (Q : Byte → Prop) (s : State) : Prop :=
  (∀ i : Fin 199, Q s.duty[i]) ∧ (∀ i : Fin 199, Q s.phase[i]) ∧ ∀ w ∈ s.commands, OperandsIn Q w

end Sys2Proof.Machine
end

