-- ==== Sys2Proof/Certificates/Slice0/Obligations.lean ====
section
/-! DEFINITION. The statements for the provers, in the order of OBLIGATIONS.json. Each docstring names the rule or the
section of spec/ it rests on. -/

open Sys2Proof Sys2Proof.Machine

/-! ### Encoding and text (30_encoding.md) -/

/-- R58: the three rows with their masks and matches; a word selects exactly one of them, by its two top bits, and
the decoder follows it. -/
def Obligations.OperationMapIsDisjointAndTotal : Prop :=
  rows = [⟨"RESET", 0x20000#18, 0x20000#18⟩, ⟨"UPDATE", 0x30000#18, 0x10000#18⟩, ⟨"HOLD", 0x30000#18, 0x00000#18⟩] ∧
  ∀ w : CommandWord,
    (∃! r, r ∈ rows ∧ r.selects w = true) ∧
    (rowOf (decode w)).selects w = true ∧
    (w.getLsbD 17 = true → decode w = .reset) ∧
    (w.getLsbD 17 = false → w.getLsbD 16 = true →
      decode w = .update (w.extractLsb' 8 8) (w.extractLsb' 0 8)) ∧
    (w.getLsbD 17 = false → w.getLsbD 16 = false → decode w = .hold)

/-- R56: the fields of the command word, bit by bit, and that the word has no other content. -/
def Obligations.CommandWordCarriesThePorts : Prop :=
  (∀ i : Inputs,
    i.word.getLsbD 17 = i.rst ∧ i.word.getLsbD 16 = i.en ∧
    (∀ k < 8, i.word.getLsbD (8 + k) = i.dutyIn.getLsbD k) ∧
    (∀ k < 8, i.word.getLsbD k = i.phaseIn.getLsbD k) ∧ inputsOf i.word = i) ∧
  ∀ w : CommandWord, (inputsOf w).word = w

/-- R57: the two operands of UPDATE are the two data bytes as numbers, unchanged. -/
def Obligations.OperandsAreTheDataBytes : Prop :=
  ∀ (w : CommandWord) (d p : Byte), decode w = .update d p →
    d.toNat = w.toNat / 256 % 256 ∧ p.toNat = w.toNat % 256

/-- R60: RESET has `2^17` encodings and HOLD `2^16`, and within either the step is the same. -/
def Obligations.IgnoredFieldsChangeNothing : Prop :=
  (∀ w : CommandWord, decode w = .reset ↔ ∃ x : BitVec 17, w = 1#1 ++ x) ∧
  (∀ w : CommandWord, decode w = .hold ↔ ∃ x : BitVec 16, w = 0#2 ++ x) ∧
  (∀ (s : State) (x y : BitVec 17), step (s.presentNext (1#1 ++ x)) = step (s.presentNext (1#1 ++ y))) ∧
  (∀ (s : State) (x y : BitVec 16), step (s.presentNext (0#2 ++ x)) = step (s.presentNext (0#2 ++ y))) ∧
  encode .reset = 0x20000#18 ∧ encode .hold = 0x00000#18

/-- Decode and encode agree on every instruction and every operand: a word decodes to `i` exactly when it is `i`'s
canonical word in every bit `i` does not ignore. Rests on R56, R58 and R60. -/
def Obligations.DecodeInvertsEncode : Prop :=
  ∀ i : Instr, decode (encode i) = i ∧ ∀ w : CommandWord, decode w = i ↔ w &&& significantBits i = encode i

/-- Words written out from R56 and R58, the vectors of V-DEC among them. -/
def Obligations.WrittenOutWordsDecode : Prop :=
  decode 0b000000000000000000#18 = .hold ∧ decode 0b001010101111001101#18 = .hold ∧
  decode 0b010000101000010100#18 = .update 10 20 ∧ decode 0b011111111100000000#18 = .update 255 0 ∧
  decode 0b010000000010000000#18 = .update 0 128 ∧ decode 0b100000000000000000#18 = .reset ∧
  decode 0b101111111100000000#18 = .reset ∧ decode 0b111111111111111111#18 = .reset

/-- The text syntax of R63: each command's word, and an operand outside 0..255 is a text error. -/
def Obligations.CommandTextAssembles : Prop :=
  TextLine.reset.assemble = .ok [0x20000#18] ∧ TextLine.hold.assemble = .ok [0x00000#18] ∧
  (∀ d p : Nat, d ≤ 255 → p ≤ 255 →
    ∃ w : CommandWord, (TextLine.update d p).assemble = .ok [w] ∧ w.toNat = 0x10000 + 256 * d + p) ∧
  ∀ d p : Nat, (255 < d ∨ 255 < p) → (TextLine.update d p).assemble = .error .operandOutOfRange

/-- R64: the expansion of every pseudo-instruction. -/
def Obligations.PseudoInstructionsExpand : Prop :=
  (∀ n d p : Nat, d ≤ 255 → p ≤ 255 →
    ∃ w : CommandWord, (TextLine.update d p).assemble = .ok [w] ∧
      (TextLine.repUpdate n d p).assemble = .ok (List.replicate n w)) ∧
  (∀ n : Nat, (TextLine.repHold n).assemble = .ok (List.replicate n 0x00000#18)) ∧
  (∀ n d1 p1 d2 p2 : Nat, d1 ≤ 255 → p1 ≤ 255 → d2 ≤ 255 → p2 ≤ 255 →
    ∃ ws : List CommandWord, (TextLine.altUpdate n d1 p1 d2 p2).assemble = .ok ws ∧ ws.length = n ∧
      ∀ k < n, (k % 2 = 0 → ws[k]? = some (encode (updateOf d1 p1))) ∧
        (k % 2 = 1 → ws[k]? = some (encode (updateOf d2 p2)))) ∧
  TextLine.construct.assemble = TextLine.reset.assemble

/-- Reading a line as R63 and R64 spell it gives the line back. The character-level conventions are the model's (log
entry 11). -/
def Obligations.ReadingInvertsSpelling : Prop :=
  ∀ t : TextLine, readLine t.spell = .ok t

/-- R62: the output word's two bytes. -/
def Obligations.OutputWordFields : Prop :=
  ∀ o : Byte × Byte, (outputWord o).extractLsb' 8 8 = o.1 ∧ (outputWord o).extractLsb' 0 8 = o.2 ∧
    (outputWord o).toNat = 256 * o.1.toNat + o.2.toNat

/-! ### The step -/

/-- A step takes the oldest command presented off the list and is `exec` of its operation (R42, R124). The idle step,
with no command presented, is the model's own choice (log entry 2). -/
def Obligations.StepRunsTheDecodedOperation : Prop :=
  (∀ (s : State) (w : CommandWord) (ws : List CommandWord), s.commands = w :: ws →
    step s = exec (decode w) (s.withCommands ws)) ∧
  ∀ s : State, s.commands = [] → step s = exec .hold s

/-- R124: the machine's step is the step function as the rule writes it, and a run from the reset state is its
iteration, observed by the outputs it returns. The command list a word comes from is the model's field (log entry 1). -/
def Obligations.MachineIteratesTheStepFunction : Prop :=
  (∀ (s : State) (w : CommandWord) (ws : List CommandWord), s.commands = w :: ws →
    ∃ t, step s = .next t ∧ ((t.duty, t.phase), out t) = stepWord (s.duty, s.phase) w) ∧
  ∀ ws : List CommandWord, ∃ t : State,
    Host.Core.run Sys2Proof.core ws.length (State.reset.withCommands ws) = .next t ∧
    (t.duty, t.phase) = (runWords (State.reset.duty, State.reset.phase) ws).1 ∧
    observe (State.reset.withCommands ws) = (runWords (State.reset.duty, State.reset.phase) ws).2

/-- R150: no operation faults, on any input and in any state, and the fault type is empty. -/
def Obligations.NoOperationFails : Prop :=
  (∀ (i : Instr) (s : State), ∃ t, exec i s = .next t) ∧
  (∀ (s : State) (w : CommandWord), Safe (s.presentNext w)) ∧ (Fault → False)

/-- 00_scope.md rule R6: one output pair after each step, in step order. That a run's command list stands in the state,
and gets shorter with each step, is the model's choice (log entry 1). -/
def Obligations.ObservationHasOnePairPerStep : Prop :=
  ∀ (s : State), (observe s).length = s.commands.length ∧
    ∀ k < s.commands.length, ∃ t : State,
      Host.Core.run Sys2Proof.core (k + 1) s = .next t ∧ t.commands = s.commands.drop (k + 1) ∧
      (observe s)[k]? = some (out t)

/-- R5, R42: an operation the host issues is run after all those it issued before (the list is log entry 1's). -/
def Obligations.IssuedOperationRunsLast : Prop :=
  ∀ (s : State) (i : Instr), ∃ t : State,
    Host.Core.run Sys2Proof.core s.commands.length s = .next t ∧
    Host.Core.run Sys2Proof.core (s.commands.length + 1) (s.issue i) = exec i t

/-! ### The operations (43_symmetric_fir_filter.md) -/

/-- R121: RESET, whatever the word's other fields hold. -/
def Obligations.ResetClearsBothLines : Prop :=
  (∀ w : CommandWord, w &&& 0x20000#18 = 0x20000#18 → decode w = .reset) ∧ encode .reset = 0x20000#18 ∧
  ∀ s : State, ∃ t, exec .reset s = .next t ∧
    (∀ i : Fin 199, t.duty[i] = 0#8) ∧ (∀ i : Fin 199, t.phase[i] = 0#8) ∧
    out t = (0#8, 0#8) ∧ exec .reset t = .next t

/-- R122: UPDATE shifts both samples in, and the outputs are those of the lines that contain them. -/
def Obligations.UpdatePushesBothSamples : Prop :=
  (∀ w : CommandWord, w &&& 0x30000#18 = 0x10000#18 →
    decode w = .update (w.extractLsb' 8 8) (w.extractLsb' 0 8)) ∧
  (∀ d p : Byte, (encode (.update d p)).toNat = 0x10000 + 256 * d.toNat + p.toNat) ∧
  ∀ (d p : Byte) (s : State), ∃ t, exec (.update d p) s = .next t ∧
    (∀ i : Fin 198, t.duty[i.val] = s.duty[i.val + 1]) ∧ t.duty[198] = d ∧
    (∀ i : Fin 198, t.phase[i.val] = s.phase[i.val + 1]) ∧ t.phase[198] = p ∧
    out t = (clamp (roundHalfAway (mac t.duty)), wrap (roundHalfAway (mac t.phase)))

/-- R122's corner cases: the output after the step does not depend on the sample pushed; the element evicted had stopped
mattering; a zero state stays zero. -/
def Obligations.UpdateOutputIgnoresItsSample : Prop :=
  (∀ (d p d' p' : Byte) (s t t' : State), exec (.update d p) s = .next t → exec (.update d' p') s = .next t' →
    out t = out t') ∧
  (∀ (s s' : State), (∀ i : Fin 198, s.duty[i.val + 1] = s'.duty[i.val + 1]) →
    (∀ i : Fin 198, s.phase[i.val + 1] = s'.phase[i.val + 1]) → out s = out s') ∧
  ∀ ws : List CommandWord, exec (.update 0 0) (State.reset.withCommands ws) = .next (State.reset.withCommands ws) ∧
    out (State.reset.withCommands ws) = (0#8, 0#8)

/-- R123: HOLD, whatever the word's data fields hold. -/
def Obligations.HoldChangesNothing : Prop :=
  (∀ w : CommandWord, w &&& 0x30000#18 = 0#18 → decode w = .hold) ∧ encode .hold = 0#18 ∧
  ∀ s : State, exec .hold s = .next s

/-- The frame of the three operations: none touches the command list; a line is left alone, or cleared, or shifted
(R72). The command list is the model's field (log entry 1): a step takes one command off it and no more. -/
def Obligations.OperationFrames : Prop :=
  (∀ (i : Instr) (s t : State), exec i s = .next t →
    t.commands = s.commands ∧
    (i = .hold → t.duty = s.duty ∧ t.phase = s.phase) ∧
    (i = .reset → t.duty = clearLine s.duty ∧ t.phase = clearLine s.phase) ∧
    ∀ d p, i = .update d p → t.duty = shift s.duty d ∧ t.phase = shift s.phase p) ∧
  ∀ s t : State, step s = .next t → t.commands = s.commands.tail

/-- R153: with `rst = 1` the step is a RESET, and the sample on the data ports is not pushed, whatever `en` is. -/
def Obligations.ResetWinsOverEnable : Prop :=
  ∀ (s : State) (i : Inputs), i.rst = true → ∃ t, step (s.presentNext i.word) = .next t ∧
    (∀ k : Fin 199, t.duty[k] = 0#8) ∧ (∀ k : Fin 199, t.phase[k] = 0#8)

/-! ### State, reset and invariants (10_state.md) -/

/-- R20: the state after RESET. -/
def Obligations.LaunchStateIsAllZero : Prop :=
  (∀ i : Fin 199, State.reset.duty[i] = 0#8) ∧ (∀ i : Fin 199, State.reset.phase[i] = 0#8) ∧
  out State.reset = (0#8, 0#8)

/-- An invariant every step keeps: whatever holds of zero, of the samples in the lines and of the samples still to be
pushed goes on holding of them, because an element is only ever written with 0, an input sample or its neighbour's
value (10_state.md section 1's reason for the range of the elements). -/
def Obligations.StepKeepsSamplesIn : Prop :=
  ∀ Q : Byte → Prop, Q 0 → ∀ s t : State, s.SamplesIn Q → step s = .next t → t.SamplesIn Q

/-- The same invariant at reset, with nothing presented (log entry 1). -/
def Obligations.ResetHasSamplesIn : Prop :=
  ∀ Q : Byte → Prop, Q 0 → State.reset.SamplesIn Q

/-- An invariant every step keeps: the lines show the last 199 samples of the history of UPDATEs since the last RESET,
as 40_delay_line_shifter.md infers from SHIFT and CLEAR ("A sample pushed by the UPDATE of tick m sits at index
198 - (n - m) after the UPDATE of tick n"). -/
def Obligations.StepKeepsTheWindow : Prop :=
  ∀ (h : List (Byte × Byte)) (s t : State),
    Window (h.map Prod.fst) s.duty → Window (h.map Prod.snd) s.phase → step s = .next t →
    Window ((advance h (fetch s).1).map Prod.fst) t.duty ∧ Window ((advance h (fetch s).1).map Prod.snd) t.phase

/-- The same invariant at reset, where the history is empty. -/
def Obligations.ResetShowsTheEmptyWindow : Prop :=
  Window [] State.reset.duty ∧ Window [] State.reset.phase

/-! ### The shifter (40_delay_line_shifter.md) -/

/-- R70: SHIFT, with its corner cases: the oldest element matters to nothing, a rotation when it is pushed again, and
the all-zero line with a zero. -/
def Obligations.ShiftMovesEveryElement : Prop :=
  ∀ (L : Line) (x : Byte),
    (∀ i : Fin 198, (shift L x)[i.val] = L[i.val + 1]) ∧ (shift L x)[198] = x ∧
    (∀ M : Line, (∀ i : Fin 198, L[i.val + 1] = M[i.val + 1]) → shift L x = shift M x) ∧
    (∀ i : Fin 199, (shift L L[0])[i] = L[i + 1]) ∧ shift Line.zero 0 = Line.zero

/-- R71: CLEAR. -/
def Obligations.ClearZeroesEveryElement : Prop :=
  ∀ (L : Line) (i : Fin 199), (clearLine L)[i] = 0#8

/-- The ring buffer of 40_delay_line_shifter.md keeps the architectural view, as that file works out from SHIFT and
CLEAR ("this spec's own working-out of the source's sentence"). -/
def Obligations.RingBufferShowsTheLine : Prop :=
  (∀ (b : Ring) (L : Line) (x : Byte), b.Shows L → (b.push x).Shows (shift L x)) ∧
  ∀ (h : Fin 199) (L : Line), (Ring.cleared h).Shows (clearLine L)

/-- No command sequence tells the ring-buffer filter from the machine at the outputs, wherever its CLEAR leaves the
heads (10_state.md section 6 allows such hidden state). -/
def Obligations.RingFilterIsIndistinguishable : Prop :=
  ∀ (h : Fin 199 × Fin 199) (r : RingFilter) (s : State) (ws : List CommandWord),
    r.duty.Shows s.duty → r.phase.Shows s.phase → r.run h ws = observe (s.withCommands ws)

/-! ### The coefficient ROM (20_memory.md) -/

/-- R34, R35, R37: the table is symmetric, strictly increasing up to the centre and strictly decreasing after it, has
its single maximum there, and ends in zeros. -/
def Obligations.RomIsASymmetricPeak : Prop :=
  (∀ i : Fin 199, K i = K (mirror i)) ∧
  (∀ i : Fin 198, i.val < 99 → (K i.castSucc).toNat < (K i.succ).toNat) ∧
  (∀ i : Fin 198, 99 ≤ i.val → (K i.succ).toNat < (K i.castSucc).toNat) ∧
  (K 99).toNat = 120250 ∧ (∀ i : Fin 199, i ≠ 99 → (K i).toNat < 120250) ∧ K 0 = 0#17 ∧ K 198 = 0#17

/-- The sums 20_memory.md section 2 infers from the table by addition, and the parameters of 00_scope.md section 4 that
follow from it. -/
def Obligations.RomSumsAndParameters : Prop :=
  (∑ i : Fin 199, (K i).toNat) = 9999998 ∧
  (∑ i : Fin 199, if i.val % 2 = 0 then (K i).toNat else 0) = 5000002 ∧
  (∑ i : Fin 199, if i.val % 2 = 1 then (K i).toNat else 0) = 4999996 ∧
  (∑ i : Fin 199, if i.val < 99 then (K i).toNat else 0) = 4939874 ∧
  Config.sumK = 9999998 ∧ Config.kMax = (K 99).toNat ∧ Config.sMax = 255 * Config.sumK ∧
  2 * Config.half = Config.scale ∧ 2 * Config.mid + 1 = Config.taps

/-! ### The multiplier tree (41_coefficient_multiplier_tree.md) -/

/-- R83: MAC, its corner cases (a) to (f), and that it fits 32 bits. -/
def Obligations.MacIsTheInnerProduct : Prop :=
  (∀ L : Line, mac L = ∑ i : Fin 199, L[i].toNat * (K i).toNat ∧ mac L ≤ 2549999490 ∧ mac L < 2 ^ 32) ∧
  mac Line.zero = 0 ∧
  (∀ L : Line, (∀ i : Fin 199, L[i] = 255#8) → mac L = 2549999490) ∧
  (∀ L M : Line, (∀ i : Fin 199, i ≠ 0 → i ≠ 198 → L[i] = M[i]) → mac L = mac M) ∧
  (∀ (L : Line) (j : Fin 199), (∀ i : Fin 199, i ≠ j → L[i] = 0#8) → mac L = L[j].toNat * (K j).toNat) ∧
  (∀ (L : Line) (v : Byte), (∀ i : Fin 199, L[i] = v) → mac L = v.toNat * 9999998) ∧
  ∀ (a b : Int) (L L1 L2 : Line),
    (∀ i : Fin 199, (L[i].toNat : Int) = a * L1[i].toNat + b * L2[i].toNat) →
    (mac L : Int) = a * mac L1 + b * mac L2

/-- The accumulator bound 41_coefficient_multiplier_tree.md section 5 infers: 32 bits suffice and 31 do not. -/
def Obligations.AccumulatorBoundIsAttained : Prop :=
  (∀ L : Line, mac L ≤ 255 * Config.sumK) ∧ 255 * Config.sumK < 2 ^ 32 ∧
  ∃ L : Line, mac L = 255 * Config.sumK ∧ 2 ^ 31 ≤ mac L

/-- R81, R82: the pre-adder and the multipliers at their widths drop no bit. -/
def Obligations.PreaddersAndMultipliersAreExact : Prop :=
  ∀ L : Line,
    (∀ i : Fin 99, (preadd L i).toNat = L[i.val].toNat + L[198 - i.val].toNat ∧ (preadd L i).toNat ≤ 510 ∧
      (prodPair L i).toNat = (preadd L i).toNat * (K ⟨i.val, by omega⟩).toNat ∧
      (prodPair L i).toNat ≤ 61302000) ∧
    (prodCentre L).toNat = L[99].toNat * (K 99).toNat ∧ (prodCentre L).toNat ≤ 30663750 ∧ (prodPair L 0).toNat = 0

/-- Folding the symmetric taps changes nothing, as 41_coefficient_multiplier_tree.md section 5 infers from the symmetry
of the table. -/
def Obligations.FoldingKeepsTheInnerProduct : Prop :=
  ∀ L : Line, mac L = (prodCentre L).toNat + ∑ i : Fin 99, (prodPair L i).toNat

/-- An adder tree of 32-bit adders of any shape, over the 100 folded or the 199 plain products in any order, computes
MAC: 41_coefficient_multiplier_tree.md section 5's inference that order and grouping are free. -/
def Obligations.EveryAdderTreeComputesMac : Prop :=
  (∀ (L : Line) (t : AdderTree (Fin 100)), t.leaves.Perm (List.finRange 100) →
    (t.eval (prodTerm L)).toNat = mac L) ∧
  ∀ (L : Line) (t : AdderTree (Fin 199)), t.leaves.Perm (List.finRange 199) →
    (t.eval (plainTerm L)).toNat = mac L

/-- R89: the accumulator of the source, in real arithmetic, is exactly `MAC(L) / 10^7`. -/
def Obligations.AccumulatorIsTheRealSum : Prop :=
  ∀ L : Line, (∑ i : Fin 199, (L[i].toNat : ℚ) * tap i) = (mac L : ℚ) / 10000000

/-! ### The quantizer (42_quantizer_saturator.md) -/

/-- R100: ROUND answers the nearest integer, of two equally near ones that farther from zero, on all integers. -/
def Obligations.RoundIsNearestHalfAwayFromZero : Prop :=
  (∀ S : Int, 2 * |S - 10000000 * roundHalfAway S| ≤ 10000000 ∧
    (∀ z : Int, |S - 10000000 * roundHalfAway S| ≤ |S - 10000000 * z|) ∧
    (2 * |S - 10000000 * roundHalfAway S| = 10000000 → |S| < |10000000 * roundHalfAway S|)) ∧
  roundHalfAway 4999999 = 0 ∧ roundHalfAway 5000000 = 1 ∧ roundHalfAway 5000001 = 1 ∧
  roundHalfAway 14999999 = 1 ∧ roundHalfAway 15000000 = 2 ∧ roundHalfAway 25000000 = 3 ∧
  roundHalfAway 1405000000 = 141 ∧ roundHalfAway 2549999490 = 255 ∧ roundHalfAway (-4999999) = 0 ∧
  roundHalfAway (-5000000) = -1 ∧ roundHalfAway (-15000000) = -2

/-- R101: CLAMP saturates, is monotone and idempotent. -/
def Obligations.ClampSaturates : Prop :=
  (∀ z : Int, (z < 0 → (clamp z).toNat = 0) ∧ (255 < z → (clamp z).toNat = 255) ∧
    (0 ≤ z → z ≤ 255 → ((clamp z).toNat : Int) = z) ∧ clamp ((clamp z).toNat : Int) = clamp z) ∧
  ∀ y z : Int, y ≤ z → (clamp y).toNat ≤ (clamp z).toNat

/-- R102: WRAP is the floored modulus 256, and the low byte of the two's-complement representation at any width of
nine bits or more. -/
def Obligations.WrapIsTheLowByte : Prop :=
  ∀ z : Int, ((wrap z).toNat : Int) = z % 256 ∧ ∀ w : Nat, 9 ≤ w → wrap z = (BitVec.ofInt w z).setWidth 8

/-- R103, R104: the two quantizers, with R105's order of rounding and reduction on values beyond the range. -/
def Obligations.QuantizersRoundFirst : Prop :=
  (∀ S : Int, qduty S = clamp (roundHalfAway S) ∧ qphase S = wrap (roundHalfAway S)) ∧
  qduty 30663750 = 3#8 ∧ qduty 2549999490 = 255#8 ∧ qphase 15392000 = 2#8 ∧
  qduty 2557000000 = 255#8 ∧ qphase 2557000000 = 0#8 ∧ qduty (-5000000) = 0#8 ∧ qphase (-5000000) = 255#8

/-- The range 42_quantizer_saturator.md infers for the block: neither limit of the clamp and no wrap ever acts, so both
streams' quantizers are ROUND. -/
def Obligations.ClampAndWrapNeverAct : Prop :=
  ∀ L : Line, 0 ≤ roundHalfAway (mac L) ∧ roundHalfAway (mac L) ≤ 255 ∧
    ((dutyOut L).toNat : Int) = roundHalfAway (mac L) ∧ ((phaseOut L).toNat : Int) = roundHalfAway (mac L)

/-! ### Laws of the whole block -/

/-- The closed form 43_symmetric_fir_filter.md section 3 infers: after any commands from the reset state, the outputs
are the quantized convolution sums of the samples of the UPDATEs since the last RESET, in either direction of the
symmetric table; HOLDs do not count. -/
def Obligations.OutputsAreTheConvolution : Prop :=
  ∀ ws : List CommandWord, ∃ t : State,
    Host.Core.run Sys2Proof.core ws.length (State.reset.withCommands ws) = .next t ∧
    out t = (clamp (roundHalfAway (convolution ((history [] ws).map Prod.fst) ((history [] ws).length - 1 : Int))),
             wrap (roundHalfAway (convolution ((history [] ws).map Prod.snd) ((history [] ws).length - 1 : Int)))) ∧
    ∀ (xs : List Byte) (n : Int),
      convolution xs n = ∑ m : Fin 199, (K m).toNat * (sampleAt xs (n - m.val)).toNat

/-- 43_symmetric_fir_filter.md section 3's inference that the output after UPDATE `n` depends on the inputs of ticks
`n-197 .. n-1` only. -/
def Obligations.OutputsDependOnTheMiddleSamples : Prop :=
  ∀ (ws vs : List CommandWord) (n : Nat), (history [] ws).length = n + 1 → (history [] vs).length = n + 1 →
    (∀ k : Nat, k < n → n < k + 198 → (history [] ws)[k]? = (history [] vs)[k]?) →
    ∃ t u : State, Host.Core.run Sys2Proof.core ws.length (State.reset.withCommands ws) = .next t ∧
      Host.Core.run Sys2Proof.core vs.length (State.reset.withCommands vs) = .next u ∧ out t = out u

/-- One sample followed by zeros meets the tap `K[198 - n]` after tick `n` and none after tick 198: the impulse response,
with the earliest, the peak and the last weight of 43_symmetric_fir_filter.md section 3. -/
def Obligations.ImpulseMeetsEachTapInTurn : Prop :=
  (∀ (d p : Byte) (n : Nat), ∃ t : State,
    Host.Core.run Sys2Proof.core (n + 1)
      (State.reset.withCommands (encode (.update d p) :: List.replicate n (encode (.update 0 0)))) = .next t ∧
    (∀ h : n < 199, mac t.duty = d.toNat * (K ⟨198 - n, by omega⟩).toNat ∧
      mac t.phase = p.toNat * (K ⟨198 - n, by omega⟩).toNat) ∧
    (199 ≤ n → t.duty = Line.zero ∧ t.phase = Line.zero)) ∧
  (K 197).toNat = 11 ∧ (K 99).toNat = 120250 ∧ (K 1).toNat = 11

/-- R127: each stream's output depends on that stream's samples only, and the same sequence in both lanes gives equal
outputs. -/
def Obligations.StreamsAreIndependentLanes : Prop :=
  (∀ (s s' : State) (ws ws' : List CommandWord), s.duty = s'.duty →
    List.Forall₂ (fun w w' => rstBit w = rstBit w' ∧ enBit w = enBit w' ∧ dutyField w = dutyField w') ws ws' →
    (observe (s.withCommands ws)).map Prod.fst = (observe (s'.withCommands ws')).map Prod.fst) ∧
  (∀ (s s' : State) (ws ws' : List CommandWord), s.phase = s'.phase →
    List.Forall₂ (fun w w' => rstBit w = rstBit w' ∧ enBit w = enBit w' ∧ phaseField w = phaseField w') ws ws' →
    (observe (s.withCommands ws)).map Prod.snd = (observe (s'.withCommands ws')).map Prod.snd) ∧
  ∀ (s : State) (ws : List CommandWord), s.duty = s.phase → (∀ w ∈ ws, dutyField w = phaseField w) →
    ∀ o ∈ observe (s.withCommands ws), o.1 = o.2

/-- R128: after a RESET the outputs are a function of the commands that follow and of nothing else. -/
def Obligations.OutputsForgetEverythingBeforeReset : Prop :=
  ∀ (s s' : State) (w : CommandWord) (ws : List CommandWord), decode w = .reset →
    observe (s.withCommands (w :: ws)) = observe (s'.withCommands (w :: ws))

/-- The steady state 43_symmetric_fir_filter.md section 3 infers: 197 UPDATEs of `v` and then one of anything give `v`
exactly, from any state, on either stream. -/
def Obligations.ConstantInputIsReproduced : Prop :=
  ∀ (s : State) (v d p : Byte) (ws : List CommandWord), ws.length = 197 →
    ((∀ w ∈ ws, ∃ q, decode w = .update v q) → ∃ t : State,
      Host.Core.run Sys2Proof.core 198 (s.withCommands (ws ++ [encode (.update d p)])) = .next t ∧ (out t).1 = v) ∧
    ((∀ w ∈ ws, ∃ q, decode w = .update q v) → ∃ t : State,
      Host.Core.run Sys2Proof.core 198 (s.withCommands (ws ++ [encode (.update d p)])) = .next t ∧ (out t).2 = v)

/-- R133: zero in, zero out, forever. -/
def Obligations.ZeroInGivesZeroOut : Prop :=
  ∀ n : Nat, observe (State.reset.withCommands (List.replicate n (encode (.update 0 0)))) =
    List.replicate n (0#8, 0#8)

/-- HOLDs do not count (R123, R177): without them the outputs of the other commands are the same, and so are the lines
at the end. -/
def Obligations.HoldsLeaveTheOtherOutputsAlone : Prop :=
  ∀ (s : State) (ws : List CommandWord),
    ((ws.zip (observe (s.withCommands ws))).filter (fun x => decode x.1 ≠ .hold)).map Prod.snd =
      observe (s.withCommands (ws.filter (fun w => decode w ≠ .hold))) ∧
    (runWords (s.duty, s.phase) ws).1 = (runWords (s.duty, s.phase) (ws.filter (fun w => decode w ≠ .hold))).1

/-- The start-up transient (70_reset_and_hazards.md section 3, with 90_conflicts.md C11): after RESET a constant input
makes outputs that never fall and that equal the input from tick 197 on. -/
def Obligations.StepResponseRisesToTheInput : Prop :=
  ∀ (d p : Byte) (m n : Nat) (o q : Byte × Byte), m ≤ n →
    (observe (State.reset.withCommands (List.replicate (n + 1) (encode (.update d p)))))[m]? = some o →
    (observe (State.reset.withCommands (List.replicate (n + 1) (encode (.update d p)))))[n]? = some q →
    o.1.toNat ≤ q.1.toNat ∧ o.2.toNat ≤ q.2.toNat ∧ (197 ≤ n → q = (d, p))

/-- The filter never overshoots: its outputs stay within the range of the samples in its line (42_quantizer_saturator.md
"the filter cannot overshoot"). -/
def Obligations.OutputsStayWithinTheSamples : Prop :=
  ∀ (L : Line) (lo hi : Nat), (∀ i : Fin 199, lo ≤ L[i].toNat ∧ L[i].toNat ≤ hi) →
    (lo ≤ (dutyOut L).toNat ∧ (dutyOut L).toNat ≤ hi) ∧ lo ≤ (phaseOut L).toNat ∧ (phaseOut L).toNat ≤ hi

/-- The family of two-level lines around the exact tie 140.5 (95_test_vectors.md V-T1, V-T2): up at the tie and below
it, down above it. -/
def Obligations.TwoLevelTiesRoundAway : Prop :=
  ∀ (L : Line) (k : Int), -135 ≤ k → k ≤ 35 →
    (∀ i : Fin 199, (L[i].toNat : Int) = if i.val < 148 then 135 + k else 220 + k) →
    (mac L : Int) = 1405000000 + k * 9999998 ∧
    ((dutyOut L).toNat : Int) = if k ≤ 0 then 141 + k else 140 + k

/-! ### Several instances (10_state.md rule R22, 60_exceptions.md rule R157) -/

/-- A step of one instance leaves every other as it was, and is that instance's own step. -/
def Obligations.InstancesShareNoState : Prop :=
  ∀ (n : Nat) (b : Bank n) (k : Fin n), ∃ b' : Bank n, b.step k = .next b' ∧
    step b[k] = .next b'[k] ∧ ∀ j : Fin n, j ≠ k → b'[j] = b[j]

/-- After any interleaving each instance is where its own steps, by themselves, bring it. -/
def Obligations.InterleavingIsUnobservable : Prop :=
  ∀ (n : Nat) (b : Bank n) (ks : List (Fin n)), ∃ b' : Bank n, b.run ks = .next b' ∧
    ∀ j : Fin n, Host.Core.run Sys2Proof.core (ks.count j) b[j] = .next b'[j]
end

