-- ==== Sys2Proof/Laws/Decode.lean ====
section
/-! SUPPORT. The command word bit by bit (R56), in the form the decoder's proofs need. -/

namespace Sys2Proof

/-- Every bit of the word the ports form. -/
theorem Inputs.getLsbD_word (i : Inputs) (k : Nat) :
    i.word.getLsbD k =
      if k < 8 then i.phaseIn.getLsbD k
      else if k < 16 then i.dutyIn.getLsbD (k - 8)
      else if k = 16 then i.en
      else (decide (k = 17) && i.rst) := by
  have h : i.word.getLsbD k =
      BitVec.getLsbD (w := 1 + 1 + 8 + 8) (BitVec.ofBool i.rst ++ BitVec.ofBool i.en ++ i.dutyIn ++ i.phaseIn) k := rfl
  rw [h, BitVec.getLsbD_append]
  split_ifs with h1 h2 h3
  · rfl
  · rw [BitVec.getLsbD_append, if_pos (by omega)]
  · subst h3
    rw [BitVec.getLsbD_append, if_neg (by omega), BitVec.getLsbD_append, if_pos (by omega)]
    simp
  · rw [BitVec.getLsbD_append, if_neg (by omega), BitVec.getLsbD_append, if_neg (by omega)]
    rw [BitVec.getLsbD_ofBool]
    by_cases hk : k = 17
    · subst hk; simp
    · simp [hk, show k - 8 - 8 - 1 ≠ 0 by omega]

/-- R58's condition, free of the Bool. -/
theorem Row.selects_iff (r : Row) (w : CommandWord) : r.selects w = true ↔ w &&& r.mask = r.pattern :=
  decide_eq_true_iff

/-- The decoder by the two bits it looks at. -/
theorem decode_eq (w : CommandWord) :
    decode w = if w.getLsbD 17 then .reset
      else if w.getLsbD 16 then .update (w.extractLsb' 8 8) (w.extractLsb' 0 8) else .hold := rfl

end Sys2Proof
end

