-- ==== Sys2Proof/Laws/Shifter.lean ====
section
/-! SUPPORT. What SHIFT and CLEAR leave in each element (R70, R71). -/

namespace Sys2Proof.Machine

@[simp] theorem Line.zero_getElem (i : Nat) (h : i < 199) : Line.zero[i] = 0#8 := by
  simp [Line.zero]

theorem clearLine_eq_zero (L : Line) : clearLine L = Line.zero := rfl

theorem shift_toList (L : Line) (x : Byte) : (shift L x).toList = L.toList.tail ++ [x] := rfl

/-- Element by element: the newest is the pushed sample, every other is the old next one. -/
theorem shift_getElem (L : Line) (x : Byte) (i : Nat) (h : i < 199) :
    (shift L x)[i] = if h' : i < 198 then L[i + 1] else x := by
  have hl : (shift L x)[i] = (L.toList.tail ++ [x])[i]'(by simp; omega) := rfl
  rw [hl, List.getElem_append]
  split_ifs with h1 h2 h2
  · simp
  · simp at h1; omega
  · simp at h1; omega
  · simp

theorem shift_getElem_of_lt (L : Line) (x : Byte) (i : Nat) (h : i < 198) : (shift L x)[i] = L[i + 1] := by
  rw [shift_getElem, dif_pos h]

theorem shift_getElem_last (L : Line) (x : Byte) : (shift L x)[198] = x := by
  rw [shift_getElem, dif_neg (by omega)]

end Sys2Proof.Machine
end

