-- ==== Sys2Proof/Laws/MultiplierTree.lean ====
section
/-! SUPPORT. Facts of the ROM that every bound on the accumulator rests on, and the shape of MAC on simple lines. -/

namespace Sys2Proof.Machine

/-- The peak bounds every entry (R35). -/
theorem K_le_peak : ∀ i : Fin 199, (K i).toNat ≤ 120250 := by decide +kernel

theorem K_sum : ∑ i : Fin 199, (K i).toNat = 9999998 := by decide +kernel

theorem K_first : K 0 = 0#17 := by decide +kernel

theorem K_last : K 198 = 0#17 := by decide +kernel

/-- Two lines with the same weighted elements have the same accumulator. -/
theorem mac_congr {L M : Line} (h : ∀ i : Fin 199, L[i].toNat * (K i).toNat = M[i].toNat * (K i).toNat) :
    mac L = mac M := Finset.sum_congr rfl fun i _ => h i

/-- A bound on the elements bounds the accumulator. -/
theorem mac_le_of_le {L : Line} {v : Nat} (h : ∀ i : Fin 199, L[i].toNat ≤ v) : mac L ≤ v * 9999998 := by
  rw [← K_sum, Finset.mul_sum]
  exact Finset.sum_le_sum fun i _ => Nat.mul_le_mul_right _ (h i)

theorem le_mac_of_le {L : Line} {v : Nat} (h : ∀ i : Fin 199, v ≤ L[i].toNat) : v * 9999998 ≤ mac L := by
  rw [← K_sum, Finset.mul_sum]
  exact Finset.sum_le_sum fun i _ => Nat.mul_le_mul_right _ (h i)

theorem mac_zero : mac Line.zero = 0 := by
  simp [mac]

end Sys2Proof.Machine
end

