-- ==== Sys2Proof/Laws/PerInstr.lean ====
section
/-! SUPPORT. Families of facts about the instruction as syntax, one lemma per constructor. -/

namespace Sys2Proof.Laws.RowSelection

/-- The canonical word of an instruction selects its own row of R58's operation map and no other row. -/
def Statement (i : Instr) : Prop := ∀ r ∈ rows, r.selects (encode i) = true ↔ r = rowOf i

theorem reset : Statement .reset := by
  unfold Statement; decide

theorem update (d p : Byte) : Statement (.update d p) := by
  have h : ∀ m : CommandWord, encode (.update d p) &&& (m &&& 0x30000#18) = 0x10000#18 &&& (m &&& 0x30000#18) := by
    intro m
    ext k hk
    simp only [encode, Inputs.word, BitVec.getElem_and, BitVec.getElem_append, BitVec.getElem_ofBool]
    interval_cases k <;> simp
  have h1 := h 0x20000#18
  have h2 := h 0x30000#18
  simp only [show (0x20000#18 &&& 0x30000#18) = 0x20000#18 from rfl, BitVec.and_self] at h1 h2
  intro r hr
  simp only [rows, List.mem_cons, List.not_mem_nil, or_false] at hr
  rcases hr with rfl | rfl | rfl <;> simp [Row.selects, resetRow, updateRow, holdRow, rowOf, h1, h2]

theorem hold : Statement .hold := by
  unfold Statement; decide

end Sys2Proof.Laws.RowSelection
end

