-- ==== Sys2Proof/Laws/Quantizer.lean ====
section
/-! SUPPORT. The quantizer's functions in the terms of arithmetic. -/

namespace Sys2Proof.Machine

/-- ROUND with its constants written out. -/
theorem roundHalfAway_def (S : Int) :
    roundHalfAway S = if 0 ≤ S then (S + 5000000) / 10000000 else -((-S + 5000000) / 10000000) := rfl

theorem roundHalfAway_mono {S T : Int} (h : S ≤ T) : roundHalfAway S ≤ roundHalfAway T := by
  rw [roundHalfAway_def, roundHalfAway_def]; split_ifs <;> omega

theorem roundHalfAway_nonneg {S : Int} (h : 0 ≤ S) : 0 ≤ roundHalfAway S := by
  rw [roundHalfAway_def, if_pos h]; omega

theorem clamp_toNat_of_mem {z : Int} (h0 : 0 ≤ z) (h1 : z ≤ 255) : ((clamp z).toNat : Int) = z := by
  unfold clamp
  rw [if_neg (by omega), if_neg (by omega), BitVec.toNat_ofNat]
  omega

theorem wrap_toNat (z : Int) : ((wrap z).toNat : Int) = z % 256 := by
  unfold wrap
  rw [BitVec.toNat_ofNat]
  omega

end Sys2Proof.Machine
end

