-- ==== Sys2Proof/Laws/State.lean ====
section
/-! SUPPORT. What each update of the state does to each field, and what `fetch` answers. -/

namespace Sys2Proof.Machine

variable (s : State) (d p : Byte) (i : Instr) (w : CommandWord) (ws : List CommandWord)

@[simp] theorem State.pushSamples_duty : (s.pushSamples d p).duty = shift s.duty d := rfl
@[simp] theorem State.pushSamples_phase : (s.pushSamples d p).phase = shift s.phase p := rfl
@[simp] theorem State.pushSamples_commands : (s.pushSamples d p).commands = s.commands := rfl

@[simp] theorem State.clearLines_duty : s.clearLines.duty = Line.zero := rfl
@[simp] theorem State.clearLines_phase : s.clearLines.phase = Line.zero := rfl
@[simp] theorem State.clearLines_commands : s.clearLines.commands = s.commands := rfl

@[simp] theorem State.withCommands_duty : (s.withCommands ws).duty = s.duty := rfl
@[simp] theorem State.withCommands_phase : (s.withCommands ws).phase = s.phase := rfl
@[simp] theorem State.withCommands_commands : (s.withCommands ws).commands = ws := rfl

@[simp] theorem State.issue_duty : (s.issue i).duty = s.duty := rfl
@[simp] theorem State.issue_phase : (s.issue i).phase = s.phase := rfl
@[simp] theorem State.issue_commands : (s.issue i).commands = s.commands ++ [encode i] := rfl

@[simp] theorem State.presentNext_duty : (s.presentNext w).duty = s.duty := rfl
@[simp] theorem State.presentNext_phase : (s.presentNext w).phase = s.phase := rfl
@[simp] theorem State.presentNext_commands : (s.presentNext w).commands = w :: s.commands := rfl

@[simp] theorem State.reset_duty : State.reset.duty = Line.zero := rfl
@[simp] theorem State.reset_phase : State.reset.phase = Line.zero := rfl
@[simp] theorem State.reset_commands : State.reset.commands = [] := rfl

/-- The lines of the fetched state are the lines of the state. -/
@[simp] theorem fetch_duty : (fetch s).2.duty = s.duty := by
  unfold fetch; split <;> rfl

@[simp] theorem fetch_phase : (fetch s).2.phase = s.phase := by
  unfold fetch; split <;> rfl

/-- A fetch takes the oldest command off the list. -/
@[simp] theorem fetch_commands : (fetch s).2.commands = s.commands.tail := by
  unfold fetch; split <;> rename_i h <;> simp [h]

/-- With no command presented, the fetch answers HOLD in the unchanged state (log entry 2). -/
theorem fetch_nil (h : s.commands = []) : fetch s = (.hold, s) := by
  simp [fetch, h]

/-- With a command presented, the fetch answers its operation. -/
theorem fetch_cons (h : s.commands = w :: ws) : fetch s = (decode w, s.withCommands ws) := by
  simp [fetch, h, State.withCommands]

end Sys2Proof.Machine
end

