-- ==== Sys2Proof/Laws/Step.lean ====
section
/-! SUPPORT. What an operation and a step answer, said once; proofs about runs cite these and unfold nothing. -/

namespace Sys2Proof.Machine

/-- Everything an operation can do. -/
theorem exec_cases {i : Instr} {s t : State} (h : exec i s = .next t) :
    (i = .reset ∧ t = s.clearLines) ∨ (∃ d p, i = .update d p ∧ t = s.pushSamples d p) ∨ (i = .hold ∧ t = s) := by
  cases i with
  | reset => cases h; exact .inl ⟨rfl, rfl⟩
  | update d p => cases h; exact .inr (.inl ⟨d, p, rfl, rfl⟩)
  | hold => cases h; exact .inr (.inr ⟨rfl, rfl⟩)

/-- A step with a command presented. -/
theorem step_cons {s : State} {w : CommandWord} {ws : List CommandWord} (h : s.commands = w :: ws) :
    step s = exec (decode w) (s.withCommands ws) := by
  rw [step, fetch_cons s w ws h]

/-- A step with none. -/
theorem step_nil {s : State} (h : s.commands = []) : step s = .next s := by
  rw [step, fetch_nil s h]; rfl

/-- Everything a step can do. -/
theorem step_cases {s t : State} (h : step s = .next t) :
    (s.commands = [] ∧ t = s) ∨
    ∃ w ws, s.commands = w :: ws ∧
      ((decode w = .reset ∧ t = (s.withCommands ws).clearLines) ∨
       (∃ d p, decode w = .update d p ∧ t = (s.withCommands ws).pushSamples d p) ∨
       (decode w = .hold ∧ t = s.withCommands ws)) := by
  cases hc : s.commands with
  | nil => rw [step_nil hc] at h; cases h; exact .inl ⟨rfl, rfl⟩
  | cons w ws => rw [step_cons hc] at h; exact .inr ⟨w, ws, rfl, exec_cases h⟩

end Sys2Proof.Machine
end

