-- ==== Sys2Proof/Laws/Run.lean ====
section
/-! SUPPORT. One step of a run and of a trace (R6), for inductions over runs. -/

namespace Sys2Proof.Machine

/-- A run whose first step answers `t` goes on from `t`. -/
theorem run_of_step {s t : State} (h : step s = .next t) (k : Nat) :
    Host.Core.run Sys2Proof.core (k + 1) s = Host.Core.run Sys2Proof.core k t := by
  have hs : Sys2Proof.core.step s = .next t := h
  simp only [Host.Core.run]
  rw [hs]

/-- A trace whose first step answers `t` shows `t`'s outputs and goes on from `t`. -/
theorem trace_of_step {s t : State} (h : step s = .next t) (k : Nat) :
    trace (k + 1) s = out t :: trace k t := by
  simp only [trace]
  rw [h]

/-- The observation of a run with a command presented, from its first step on. -/
theorem observe_of_step {s t : State} {w : CommandWord} {ws : List CommandWord} (hc : s.commands = w :: ws)
    (h : step s = .next t) (ht : t.commands = ws) : observe s = out t :: observe t := by
  rw [observe, hc, List.length_cons, trace_of_step h, observe, ht]

theorem observe_nil {s : State} (h : s.commands = []) : observe s = [] := by
  rw [observe, h]; rfl

end Sys2Proof.Machine
end

