-- ==== Sys2Proof/Tests/Slice0.lean ====
section
/-! SUPPORT. The model's own tests. Expected values are the spec's: 95_test_vectors.md (V-DEC, V-SH, V-MAC, V-RND, the
programs' single steps), the worked encodings of 30_encoding.md and the corner-case tables of 42_quantizer_saturator.md. A
theorem test_hyp_… shows values that meet the hypotheses of one statement. -/

namespace Sys2Proof.Tests

open Sys2Proof Sys2Proof.Machine

/-! ### Helpers -/

/-- A line with the older `n` samples equal to `a` and the others equal to `b` (V-T2's two-level lines). -/
def twoLevel (n : Nat) (a b : Byte) : Line := Vector.ofFn fun i => if i.val < n then a else b

/-- A line that is zero but for one element. -/
def single (j : Nat) (v : Byte) : Line := Vector.ofFn fun i => if i.val = j then v else 0#8

/-- A small state. -/
def someState : State := ⟨single 198 7, single 198 9, [0x10A14#18, 0x3FFFF#18]⟩

theorem twoLevel_getElem (n : Nat) (a b : Byte) (i : Fin 199) :
    (twoLevel n a b)[i] = if i.val < n then a else b := by
  simp [twoLevel]

theorem single_getElem (j : Nat) (v : Byte) (i : Fin 199) : (single j v)[i] = if i.val = j then v else 0#8 := by
  simp [single]

/-- A serial adder over the listed terms, one after another. -/
def chain {α : Type} (t : AdderTree α) (as : List α) : AdderTree α := as.foldl (fun t a => .add t (.leaf a)) t

theorem chain_leaves {α : Type} (as : List α) (t : AdderTree α) : (chain t as).leaves = t.leaves ++ as := by
  induction as generalizing t with
  | nil => simp [chain]
  | cons a as ih =>
    rw [show chain t (a :: as) = chain (.add t (.leaf a)) as from rfl, ih]
    simp [AdderTree.leaves]

/-! ### Well-formedness: one ill-formed term for each check -/

theorem test_wf_update_duty : (TextLine.update 256 0).wellFormed = false := by decide
theorem test_wf_update_phase : (TextLine.update 0 256).wellFormed = false := by decide
theorem test_wf_rep_duty : (TextLine.repUpdate 3 256 0).wellFormed = false := by decide
theorem test_wf_rep_phase : (TextLine.repUpdate 3 0 300).wellFormed = false := by decide
theorem test_wf_alt_first_duty : (TextLine.altUpdate 2 256 0 0 0).wellFormed = false := by decide
theorem test_wf_alt_first_phase : (TextLine.altUpdate 2 0 256 0 0).wellFormed = false := by decide
theorem test_wf_alt_second_duty : (TextLine.altUpdate 2 0 0 256 0).wellFormed = false := by decide
theorem test_wf_alt_second_phase : (TextLine.altUpdate 2 0 0 0 256).wellFormed = false := by decide
theorem test_wf_update_largest : (TextLine.update 255 255).wellFormed = true := by decide

/-! ### Decoding, V-DEC and the worked encodings of 30_encoding.md section 8 -/

theorem test_decode_hold : decode 0b00_00000000_00000000#18 = .hold := by decide
theorem test_decode_hold_ignored : decode 0b00_10101011_11001101#18 = .hold := by decide
theorem test_decode_update : decode 0b01_00001010_00010100#18 = .update 10 20 := by decide
theorem test_decode_update_duty_high : decode 0b01_11111111_00000000#18 = .update 255 0 := by decide
theorem test_decode_reset : decode 0b10_00000000_00000000#18 = .reset := by decide
theorem test_decode_reset_wins : decode 0b11_11111111_11111111#18 = .reset := by decide
theorem test_encode_update : encode (.update 10 20) = 0x10A14#18 := by decide
theorem test_encode_reset : encode .reset = 0x20000#18 := by decide
theorem test_encode_hold : encode .hold = 0x00000#18 := by decide
theorem test_decode_table_word : decodeTableWord 24 0x1FF00 = some (.update 255 0) := by decide
theorem test_decode_number_too_wide : decodeNumber 0x40000 = .error .widerThanCommandWord := by decide
theorem test_output_word : outputWord (3#8, 2#8) = 0x0302#16 := by decide

/-! ### Text (R63, R64) -/

theorem test_read_program :
    readProgram "RESET\nREP 2: UPDATE 255, 0\nALT 3: UPDATE 255, 0xFF / UPDATE 0, 0\nHOLD".toList =
      .ok [0x20000#18, 0x1FF00#18, 0x1FF00#18, 0x1FFFF#18, 0x10000#18, 0x1FFFF#18, 0x00000#18] := by decide +kernel
theorem test_read_operand_too_large :
    readProgram "UPDATE 256, 0".toList = .error .operandOutOfRange := by decide +kernel
theorem test_read_no_line : readLine "UPDATE 1".toList = .error .notALine := by decide +kernel
theorem test_spell_alt :
    (TextLine.altUpdate 400 255 255 0 0).spell = "ALT 400: UPDATE 255, 255 / UPDATE 0, 0".toList := by decide +kernel

/-! ### V-SH -/

theorem test_shift_drops_the_oldest : shift (single 0 9) 0 = Line.zero := by decide +kernel
theorem test_shift_moves : (shift (single 198 255) 7)[197] = 255#8 ∧ (shift (single 198 255) 7)[198] = 7#8 := by
  decide +kernel
theorem test_clear : clearLine (twoLevel 99 1 255) = Line.zero := by decide +kernel

/-! ### V-MAC -/

theorem test_mac_all_255 : mac (twoLevel 0 0 255) = 2549999490 := by decide +kernel
theorem test_mac_peak : mac (single 99 255) = 30663750 := by decide +kernel
theorem test_mac_first_live_tap : mac (single 1 255) = 2805 := by decide +kernel
theorem test_mac_index_line : mac (Vector.ofFn fun i => BitVec.ofNat 8 i.val) = 989999802 := by decide +kernel
theorem test_mac_seven_i_plus_three :
    mac (Vector.ofFn fun i => BitVec.ofNat 8 (7 * i.val + 3)) = 1279547280 := by decide +kernel
theorem test_preadd_and_prod :
    (preadd (Vector.ofFn fun i => if i.val = 10 then 200#8 else if i.val = 188 then 100#8 else 0#8) 10).toNat = 300 ∧
    (prodPair (Vector.ofFn fun i => if i.val = 10 then 200#8 else if i.val = 188 then 100#8 else 0#8) 10).toNat =
      338700 := by decide +kernel

/-! ### V-RND, V-CL, V-WR -/

theorem test_round_tie_up : roundHalfAway 25000000 = 3 := by decide
theorem test_round_negative_tie : roundHalfAway (-15000000) = -2 := by decide
theorem test_clamp_edges : clamp (-1) = 0#8 ∧ clamp 0 = 0#8 ∧ clamp 255 = 255#8 ∧ clamp 256 = 255#8 := by decide
theorem test_wrap_edges :
    wrap 256 = 0#8 ∧ wrap 511 = 255#8 ∧ wrap (-1) = 255#8 ∧ wrap (-129) = 127#8 ∧ wrap (-257) = 255#8 := by decide
theorem test_quantizers_differ : qduty 2560000000 = 255#8 ∧ qphase 2560000000 = 0#8 := by decide

/-! ### Outputs and single steps -/

/-- R120's example. -/
theorem test_out_peak : (dutyOut (single 99 255), phaseOut (single 99 128)) = (3#8, 2#8) := by decide +kernel
/-- V-T1: the exact tie 140.5. -/
theorem test_out_tie : dutyOut (twoLevel 148 135 220) = 141#8 := by decide +kernel
/-- V-T3: the exact tie 0.5. -/
theorem test_out_smallest_tie :
    phaseOut (Vector.ofFn fun i => if i.val = 44 then 10#8 else if i.val = 99 then 39#8 else 0#8) = 1#8 := by
  decide +kernel
/-- P3 step 3: RESET with `en = 1` from a dirty state. -/
theorem test_step_reset :
    step (⟨twoLevel 0 0 255, twoLevel 0 0 255, [0x3FFFF#18]⟩ : State) = .next State.reset := rfl
/-- P3 step 4: `UPDATE 7, 9` after RESET. -/
theorem test_step_update :
    step (State.reset.withFetchWord 24 0x10709) = .next (State.reset.pushSamples 7 9) := rfl
theorem test_step_hold : step (State.reset.withFetchWord 24 0x0ABCD) = .next State.reset := rfl
/-- P3 step 1: the sample pushed does not show in the output of its own tick. -/
theorem test_update_output_unchanged :
    out ((⟨twoLevel 0 0 255, twoLevel 0 0 255, []⟩ : State).pushSamples 0 0) = (255#8, 255#8) := by decide +kernel
theorem test_exec_reset : exec .reset someState = .next ⟨Line.zero, Line.zero, someState.commands⟩ := rfl
theorem test_observe_two : (observe someState).length = 2 := by decide +kernel

/-! ### Witnesses for the statements' hypotheses -/

theorem test_hyp_operation_map_clauses :
    (0x3FFFF#18).getLsbD 17 = true ∧ ((0x1FFFF#18).getLsbD 17 = false ∧ (0x1FFFF#18).getLsbD 16 = true) ∧
    ((0x0FFFF#18).getLsbD 17 = false ∧ (0x0FFFF#18).getLsbD 16 = false) := by decide
theorem test_hyp_word_bits : (0 < 8 ∧ 7 < 8) ∧ (Inputs.mk false true 0x80 0).word.getLsbD (8 + 7) = true := by decide
theorem test_hyp_operands : decode 0x1FFFF#18 = .update 255 255 ∧ decode 0x10000#18 = .update 0 0 := by decide
theorem test_hyp_command_text :
    (255 ≤ 255 ∧ 0 ≤ 255) ∧ (TextLine.update 255 0).assemble = .ok [0x1FF00#18] ∧
    (TextLine.update 0 256).assemble = .error .operandOutOfRange := by decide
theorem test_hyp_pseudo :
    (TextLine.altUpdate 2 255 0 0 255).assemble = .ok [0x1FF00#18, 0x100FF#18] ∧
    (TextLine.repUpdate 0 255 255).assemble = .ok [] := by decide
theorem test_hyp_step_presented : someState.commands = 0x10A14#18 :: [0x3FFFF#18] := rfl
theorem test_hyp_step_idle : State.reset.commands = [] ∧ step State.reset = .next State.reset := ⟨rfl, rfl⟩
theorem test_hyp_observation_index : 0 < someState.commands.length ∧ 1 < someState.commands.length := by decide
theorem test_hyp_reset_word : 0x3FFFF#18 &&& 0x20000#18 = 0x20000#18 := by decide
theorem test_hyp_update_word : 0x1FFFF#18 &&& 0x30000#18 = 0x10000#18 := by decide
theorem test_hyp_hold_word : 0x0ABCD#18 &&& 0x30000#18 = 0#18 := by decide
theorem test_hyp_update_output :
    exec (.update 0 0) someState = .next (someState.pushSamples 0 0) ∧
    exec (.update 255 255) someState = .next (someState.pushSamples 255 255) := ⟨rfl, rfl⟩
theorem test_hyp_update_output_tail :
    ∀ i : Fin 198, (single 0 9)[i.val + 1] = (single 0 200)[i.val + 1] := by simp [single]
theorem test_hyp_frames :
    exec .hold someState = .next someState ∧ exec .reset someState = .next someState.clearLines ∧
    exec (.update 1 2) someState = .next (someState.pushSamples 1 2) ∧
    step someState = .next ((someState.withCommands [0x3FFFF#18]).pushSamples 10 20) := ⟨rfl, rfl, rfl, rfl⟩
theorem test_hyp_reset_wins : (Inputs.mk true true 255 255).rst = true ∧ (Inputs.mk true true 255 255).en = true := by
  decide
theorem test_hyp_samples_in :
    ((0 : Byte) ≠ 255 ∧ (⟨single 198 7, single 198 9, [0x10A14#18]⟩ : State).SamplesIn (· ≠ 255)) ∧
    ∃ t, step (⟨single 198 7, single 198 9, [0x10A14#18]⟩ : State) = .next t := by
  have h : ∀ (v : Byte) (i : Fin 199), v ≠ 255 → (single 198 v)[i] ≠ 255 := by
    intro v i hv
    rw [single_getElem]
    split_ifs
    · exact hv
    · decide
  refine ⟨⟨by decide, fun i => h 7 i (by decide), fun i => h 9 i (by decide), ?_⟩, _, rfl⟩
  intro w hw d p h
  obtain rfl := List.mem_singleton.1 hw
  rw [show decode 0x10A14#18 = .update 10 20 by decide] at h
  cases h
  decide
theorem test_hyp_window :
    Window ([(7, 9)].map Prod.fst) (single 198 7) ∧ Window ([(7, 9)].map Prod.snd) (single 198 9) ∧
    ∃ t, step (⟨single 198 7, single 198 9, [0x10A14#18]⟩ : State) = .next t := by
  have h : ∀ v : Byte, Window [v] (single 198 v) := by
    intro v i
    rw [single_getElem, sampleAt]
    rw [List.length_singleton]
    by_cases h1 : i.val = 198
    · rw [if_pos h1, if_neg (by omega), h1]; rfl
    · rw [if_neg h1, if_pos (by omega)]
  exact ⟨h 7, h 9, _, rfl⟩
theorem test_hyp_shift_same_tail :
    ∀ i : Fin 198, (twoLevel 1 5 3)[i.val + 1] = (twoLevel 1 9 3)[i.val + 1] := by simp [twoLevel]
theorem test_hyp_ring_shows : (⟨(single 42 9), 43⟩ : Ring).Shows (single 198 9) := by
  unfold Ring.Shows; decide +kernel
theorem test_hyp_ring_filter :
    (RingFilter.mk (Ring.cleared 43) (Ring.cleared 198)).duty.Shows State.reset.duty ∧
    (RingFilter.mk (Ring.cleared 43) (Ring.cleared 198)).phase.Shows State.reset.phase := by
  constructor <;> (intro i; simp [Ring.elem, Ring.cleared, State.reset])
theorem test_hyp_rom_slopes : ((98 : Fin 198).val < 99) ∧ (99 ≤ (99 : Fin 198).val) ∧ (98 : Fin 199) ≠ 99 := by decide
theorem test_hyp_mac_lines :
    (∀ i : Fin 199, (twoLevel 0 0 255)[i] = 255#8) ∧
    (∀ i : Fin 199, i ≠ 0 → i ≠ 198 → (single 0 255)[i] = (single 198 255)[i]) ∧
    (∀ i : Fin 199, i ≠ 10 → (single 10 200)[i] = 0#8) := by
  refine ⟨fun i => by rw [twoLevel_getElem]; rfl, fun i h0 h1 => ?_, fun i h => ?_⟩
  · have h0' : i.val ≠ 0 := fun e => h0 (Fin.ext e)
    have h1' : i.val ≠ 198 := fun e => h1 (Fin.ext e)
    rw [single_getElem, single_getElem, if_neg h0', if_neg h1']
  · have h' : i.val ≠ 10 := fun e => h (Fin.ext e)
    rw [single_getElem, if_neg h']
theorem test_hyp_mac_linear :
    ∀ i : Fin 199, ((twoLevel 99 7 3)[i].toNat : Int) =
      2 * ((twoLevel 99 5 2)[i].toNat : Int) + (-1) * ((twoLevel 99 3 1)[i].toNat : Int) := by
  intro i
  rw [twoLevel_getElem, twoLevel_getElem, twoLevel_getElem]
  split_ifs <;> rfl
theorem test_hyp_adder_tree_folded : (chain (.leaf 0) (List.finRange 100).tail).leaves.Perm (List.finRange 100) := by
  rw [chain_leaves, List.finRange_succ]; exact .refl _
theorem test_hyp_adder_tree_plain : (chain (.leaf 0) (List.finRange 199).tail).leaves.Perm (List.finRange 199) := by
  rw [chain_leaves, List.finRange_succ]; exact .refl _
theorem test_hyp_round_tie : 2 * |(5000000 : Int) - 10000000 * roundHalfAway 5000000| = 10000000 := by decide
theorem test_hyp_clamp_clauses : (-1 : Int) < 0 ∧ (255 : Int) < 256 ∧ (0 : Int) ≤ 0 ∧ (255 : Int) ≤ 255 := by decide
theorem test_hyp_clamp_ordered : (254 : Int) ≤ 255 ∧ (255 : Int) ≤ 256 ∧ (-1 : Int) ≤ 0 := by decide
theorem test_hyp_wrap_width : 9 ≤ 9 ∧ wrap (-129) = (BitVec.ofInt 9 (-129)).setWidth 8 := by decide
theorem test_hyp_middle_samples :
    (history [] [0x10101#18, 0x10707#18]).length = 1 + 1 ∧ (history [] [0x10101#18, 0x10909#18]).length = 1 + 1 ∧
    ∀ k : Nat, k < 1 → 1 < k + 198 → (history [] [0x10101#18, 0x10707#18])[k]? =
      (history [] [0x10101#18, 0x10909#18])[k]? := by
  refine ⟨by decide, by decide, fun k hk _ => ?_⟩
  obtain rfl : k = 0 := by omega
  decide
theorem test_hyp_impulse_clauses : 198 < 199 ∧ 199 ≤ 199 := by decide
theorem test_hyp_lanes :
    List.Forall₂ (fun w w' => rstBit w = rstBit w' ∧ enBit w = enBit w' ∧ dutyField w = dutyField w')
      [0x10A14#18] [0x10AFF#18] ∧
    List.Forall₂ (fun w w' => rstBit w = rstBit w' ∧ enBit w = enBit w' ∧ phaseField w = phaseField w')
      [0x10A14#18] [0x1FF14#18] ∧
    State.reset.duty = State.reset.phase ∧ ∀ w ∈ [0x10A0A#18, 0x1FFFF#18], dutyField w = phaseField w := by
  refine ⟨.cons (by decide) .nil, .cons (by decide) .nil, rfl, ?_⟩
  intro w hw
  rcases List.mem_cons.1 hw with rfl | hw
  · decide
  · obtain rfl := List.mem_singleton.1 hw
    decide
theorem test_hyp_forget : decode 0x3FFFF#18 = .reset := by decide
theorem test_hyp_constant_input :
    (List.replicate 197 (encode (.update 200 200))).length = 197 ∧
    (∀ w ∈ List.replicate 197 (encode (.update 200 200)), ∃ q, decode w = .update 200 q) ∧
    ∀ w ∈ List.replicate 197 (encode (.update 200 200)), ∃ q, decode w = .update q 200 := by
  refine ⟨List.length_replicate, ?_, ?_⟩ <;> (intro w hw; rw [List.eq_of_mem_replicate hw]; exact ⟨200, by decide⟩)
theorem test_hyp_step_response :
    (observe (State.reset.withCommands (List.replicate 1 (encode (.update 200 100)))))[0]? = some (0#8, 0#8) := by
  decide +kernel
theorem test_hyp_step_response_settled :
    ((observe (State.reset.withCommands (List.replicate 198 (encode (.update 200 100)))))[197]?).isSome = true := by
  decide +kernel
theorem test_hyp_within_samples :
    ∀ i : Fin 199, 135 ≤ (twoLevel 148 135 220)[i].toNat ∧ (twoLevel 148 135 220)[i].toNat ≤ 220 := by
  intro i
  rw [twoLevel_getElem]
  split_ifs <;> decide
theorem test_hyp_two_level_boundaries :
    (∀ i : Fin 199, ((twoLevel 148 0 85)[i].toNat : Int) = if i.val < 148 then 135 + -135 else 220 + -135) ∧
    (∀ i : Fin 199, ((twoLevel 148 135 220)[i].toNat : Int) = if i.val < 148 then 135 + 0 else 220 + 0) ∧
    (∀ i : Fin 199, ((twoLevel 148 136 221)[i].toNat : Int) = if i.val < 148 then 135 + 1 else 220 + 1) ∧
    (∀ i : Fin 199, ((twoLevel 148 170 255)[i].toNat : Int) = if i.val < 148 then 135 + 35 else 220 + 35) := by
  refine ⟨?_, ?_, ?_, ?_⟩ <;> (intro i; rw [twoLevel_getElem]; split_ifs <;> rfl)
theorem test_hyp_two_instances : (1 : Fin 2) ≠ 0 ∧ Bank.step (Vector.replicate 2 someState) (1 : Fin 2) =
    .next ((Vector.replicate 2 someState).set 1 ((someState.withCommands [0x3FFFF#18]).pushSamples 10 20)) :=
  ⟨by decide, rfl⟩

end Sys2Proof.Tests
end

section
/-! PROOFS. The state after RESET and its invariants (10_state.md): the laws they need of the operations, the outputs, the
sample history and the ring buffer, and after them the theorems that settle the statements. -/

namespace Sys2Proof.Machine

/-! ### The operations -/

/-- No operation fails (R150). -/
theorem exec_total (i : Instr) (s : State) : ∃ t, exec i s = .next t := by
  cases i with
  | reset => exact ⟨_, rfl⟩
  | update d p => exact ⟨_, rfl⟩
  | hold => exact ⟨_, rfl⟩

/-- No operation touches the command list. -/
theorem exec_commands {i : Instr} {s t : State} (h : exec i s = .next t) : t.commands = s.commands := by
  obtain ⟨-, rfl⟩ | ⟨d, p, -, rfl⟩ | ⟨-, rfl⟩ := exec_cases h
  · rfl
  · rfl
  · rfl

/-! ### The cleared line and the empty history -/

@[simp] theorem dutyOut_zero : dutyOut Line.zero = 0#8 := by
  rw [dutyOut, mac_zero]; decide

@[simp] theorem phaseOut_zero : phaseOut Line.zero = 0#8 := by
  rw [phaseOut, mac_zero]; decide

@[simp] theorem out_reset : out State.reset = (0#8, 0#8) := by
  simp [out]

/-- Before the first sample, every tick's sample is 0 (R74). -/
@[simp] theorem sampleAt_nil (k : Int) : sampleAt [] k = 0#8 := by
  unfold sampleAt
  split
  · rfl
  · exact List.getD_nil

theorem window_nil_zero : Window [] Line.zero := fun i => by
  rw [sampleAt_nil]; exact Line.zero_getElem i i.isLt

/-! ### The ring buffer (R73) -/

/-- After a push the head stands one further, so the slot just written is the newest element. -/
theorem Ring.elem_push_last (b : Ring) (x : Byte) : (b.push x).elem (Fin.last 198) = x := by
  have hi : b.head + 1 + Fin.last 198 = b.head := by
    rw [add_assoc, show (1 : Fin 199) + Fin.last 198 = 0 from rfl, add_zero]
  simp only [Ring.elem, Ring.push, hi]
  exact Vector.getElem_set_self _

/-- Every other element is the old next one: its slot is not the one at the old head. -/
theorem Ring.elem_push_castSucc (b : Ring) (x : Byte) (j : Fin 198) :
    (b.push x).elem j.castSucc = b.elem j.succ := by
  have hi : b.head + 1 + j.castSucc = b.head + j.succ := by
    rw [add_assoc, add_comm 1, Fin.coeSucc_eq_succ]
  have hne : b.head.val ≠ (b.head + j.succ).val := fun h =>
    Fin.succ_ne_zero j (left_eq_add.mp (Fin.ext h))
  simp only [Ring.elem, Ring.push, hi]
  exact Vector.getElem_set_ne _ _ hne

/-- A push keeps the architectural view. -/
theorem Ring.Shows.push {b : Ring} {L : Line} (h : b.Shows L) (x : Byte) : (b.push x).Shows (shift L x) := by
  intro i
  induction i using Fin.lastCases with
  | last => exact (b.elem_push_last x).trans (shift_getElem_last L x).symm
  | cast j => exact (b.elem_push_castSucc x j).trans ((h j.succ).trans (shift_getElem_of_lt L x j j.isLt).symm)

/-- A cleared ring shows the zero line, wherever its head stands. -/
theorem Ring.shows_cleared (h : Fin 199) : (Ring.cleared h).Shows Line.zero := fun i => by
  simp [Ring.elem, Ring.cleared]

/-! ### The ring filter beside the machine -/

/-- The simulation relation: the two rings show the two lines of the state. -/
def RingFilter.Shows (r : RingFilter) (s : State) : Prop := r.duty.Shows s.duty ∧ r.phase.Shows s.phase

/-- Related filters have the same outputs. -/
theorem RingFilter.Shows.out_eq {r : RingFilter} {s : State} (h : r.Shows s) : r.out = Machine.out s := by
  obtain ⟨hd, hp⟩ := h
  simp only [RingFilter.out, hd _, hp _]
  rfl

/-- The ring filter's step simulates the operation the command word selects. -/
theorem RingFilter.Shows.step {r : RingFilter} {s t : State} (hrs : r.Shows s) (h : Fin 199 × Fin 199)
    {w : CommandWord} (ht : exec (decode w) s = .next t) : (r.step h w).Shows t := by
  obtain ⟨hd, hp⟩ := hrs
  obtain ⟨hw, rfl⟩ | ⟨d, p, hw, rfl⟩ | ⟨hw, rfl⟩ := exec_cases ht
  · rw [RingFilter.step, hw]; exact ⟨Ring.shows_cleared h.1, Ring.shows_cleared h.2⟩
  · rw [RingFilter.step, hw]; exact ⟨hd.push d, hp.push p⟩
  · rw [RingFilter.step, hw]; exact ⟨hd, hp⟩

/-- Related filters have the same observation. -/
theorem RingFilter.Shows.run_eq_observe {r : RingFilter} {s : State} {ws : List CommandWord} (hrs : r.Shows s)
    (h : Fin 199 × Fin 199) (hc : s.commands = ws) : r.run h ws = observe s := by
  induction ws generalizing r s with
  | nil => rw [observe_nil hc]; rfl
  | cons w ws ih =>
    obtain ⟨t, ht⟩ := exec_total (decode w) (s.withCommands ws)
    have hrt : (r.step h w).Shows t := RingFilter.Shows.step (s := s.withCommands ws) hrs h ht
    have htc : t.commands = ws := exec_commands ht
    rw [observe_of_step hc ((step_cons hc).trans ht) htc, ← ih hrt htc, ← hrt.out_eq]
    rfl

/-! ### The statements -/

/-- Settles O30: the rings show the machine's lines after every command, by induction on the command list. -/
theorem ringFilterIsIndistinguishable : Obligations.RingFilterIsIndistinguishable := by
  intro h r s ws hd hp
  have hrs : r.Shows (s.withCommands ws) := ⟨hd, hp⟩
  exact hrs.run_eq_observe h rfl

/-- Settles O22: both lines are the zero line, whose accumulator is 0. -/
theorem launchStateIsAllZero : Obligations.LaunchStateIsAllZero :=
  ⟨fun i => Line.zero_getElem i i.isLt, fun i => Line.zero_getElem i i.isLt, out_reset⟩

/-- Settles O24: every element is 0, and no command is presented (log entry 1). -/
theorem resetHasSamplesIn : Obligations.ResetHasSamplesIn := by
  intro Q hQ
  have hzero : ∀ i : Fin 199, Q Line.zero[i] := fun i => (Line.zero_getElem i i.isLt).symm ▸ hQ
  exact ⟨hzero, hzero, fun w hw => absurd hw List.not_mem_nil⟩

/-- Settles O26: the window of the empty history is the zero line. -/
theorem resetShowsTheEmptyWindow : Obligations.ResetShowsTheEmptyWindow :=
  ⟨window_nil_zero, window_nil_zero⟩

end Sys2Proof.Machine
end

section
/-! PROOFS. The coefficient table and the folded multiplier tree (20_memory.md, 41_coefficient_multiplier_tree.md): the
table's symmetry and slopes, the products as numbers, the folding of a sum over the 199 taps, and after them the
theorems that settle the statements. -/

namespace Sys2Proof.Machine

/-! ### The coefficient table -/

/-- The partner of an index is its reversal, for which Mathlib has the lemmas. -/
theorem mirror_eq_rev (i : Fin 199) : mirror i = i.rev := by
  apply Fin.ext
  rw [Fin.val_rev]
  change 198 - i.val = 199 - (i.val + 1)
  omega

/-- R34's symmetry, read off the table. -/
theorem K_mirror : ∀ i : Fin 199, K (mirror i) = K i := by decide +kernel

theorem K_rev (i : Fin 199) : K i.rev = K i := by
  rw [← mirror_eq_rev, K_mirror]

/-- R35: the rising half, read off the table. -/
theorem K_lt_succ : ∀ i : Fin 198, i.val < 99 → (K i.castSucc).toNat < (K i.succ).toNat := by decide +kernel

/-- The falling half is the rising half mirrored. -/
theorem K_succ_lt (i : Fin 198) (hi : 99 ≤ i.val) : (K i.succ).toNat < (K i.castSucc).toNat := by
  have hrev : i.rev.val < 99 := by rw [Fin.val_rev]; omega
  have h := K_lt_succ i.rev hrev
  rwa [← Fin.rev_succ, ← Fin.rev_castSucc, K_rev, K_rev] at h

theorem K_peak : (K 99).toNat = 120250 := by decide +kernel

theorem K_strictMono_to_peak : StrictMono fun i : Fin 100 => (K (i.castLE (by norm_num))).toNat :=
  Fin.strictMono_iff_lt_succ.2 fun i => K_lt_succ (i.castLE (by norm_num)) i.isLt

theorem K_lt_peak_of_lt {i : Fin 199} (hi : i.val < 99) : (K i).toNat < 120250 := by
  have h := K_strictMono_to_peak (a := ⟨i, by omega⟩) (b := Fin.last 99) hi
  exact h.trans_eq K_peak

/-- The peak is the only maximum: an index above it has its partner below. -/
theorem K_lt_peak {i : Fin 199} (hi : i ≠ 99) : (K i).toNat < 120250 := by
  have hne : i.val ≠ 99 := fun h => hi (Fin.ext h)
  rcases Nat.lt_or_gt_of_ne hne with hlt | hgt
  · exact K_lt_peak_of_lt hlt
  · have hrev : i.rev.val < 99 := by rw [Fin.val_rev]; omega
    rw [← K_rev]
    exact K_lt_peak_of_lt hrev

/-! ### The products as numbers: none overflows its width (R81, R82) -/

/-- Two bytes add up within nine bits. -/
theorem preadd_toNat (L : Line) (i : Fin 99) : (preadd L i).toNat = L[i.val].toNat + L[198 - i.val].toNat := by
  have h1 := L[i.val].isLt
  have h2 := L[198 - i.val].isLt
  rw [preadd, BitVec.toNat_add, BitVec.toNat_setWidth, BitVec.toNat_setWidth]
  omega

/-- A multiplier as wide as its two operands together drops no bit. -/
theorem toNat_setWidth_mul_setWidth {m n w : Nat} (x : BitVec m) (y : BitVec n) (h : m + n ≤ w) :
    (x.setWidth w * y.setWidth w).toNat = x.toNat * y.toNat := by
  have hlt : x.toNat * y.toNat < 2 ^ w :=
    calc x.toNat * y.toNat < 2 ^ m * 2 ^ n := Nat.mul_lt_mul'' x.isLt y.isLt
      _ = 2 ^ (m + n) := (pow_add 2 m n).symm
      _ ≤ 2 ^ w := Nat.pow_le_pow_right two_pos h
  rw [BitVec.toNat_mul, BitVec.toNat_setWidth_of_le (by omega), BitVec.toNat_setWidth_of_le (by omega),
    Nat.mod_eq_of_lt hlt]

theorem prodPair_toNat (L : Line) (i : Fin 99) :
    (prodPair L i).toNat = (preadd L i).toNat * (K ⟨i.val, by omega⟩).toNat :=
  toNat_setWidth_mul_setWidth _ _ (by norm_num)

theorem prodCentre_toNat (L : Line) : (prodCentre L).toNat = L[99].toNat * (K 99).toNat :=
  toNat_setWidth_mul_setWidth _ _ (by norm_num)

/-! ### Folding -/

/-- A sum over the taps is its centre term and the terms of the 99 mirrored pairs: split off the upper 100 terms, take
their first as the centre, and run the others backwards. -/
theorem sum_taps_eq_centre_add_pairs (f : Fin 199 → Nat) :
    ∑ i, f i = f 99 + ∑ i : Fin 99, (f (i.castLE (by norm_num)) + f (mirror (i.castLE (by norm_num)))) := by
  have hupper : ∑ i : Fin 99, f (Fin.natAdd 99 i.succ) = ∑ i : Fin 99, f (mirror (i.castLE (by norm_num))) := by
    rw [← Equiv.sum_comp Fin.revPerm]
    refine Finset.sum_congr rfl fun i _ => congrArg f (Fin.ext ?_)
    rw [Fin.revPerm_apply, Fin.val_natAdd, Fin.val_succ, Fin.val_rev]
    change 99 + (99 - (i.val + 1) + 1) = 198 - i.val
    omega
  calc ∑ i, f i
      = ∑ i : Fin 99, f (i.castAdd 100) + ∑ i : Fin 100, f (Fin.natAdd 99 i) :=
        Fin.sum_univ_add (a := 99) (b := 100) f
    _ = ∑ i : Fin 99, f (i.castAdd 100) + (f 99 + ∑ i : Fin 99, f (Fin.natAdd 99 i.succ)) := by
        rw [Fin.sum_univ_succ]; rfl
    _ = f 99 + (∑ i : Fin 99, f (i.castAdd 100) + ∑ i : Fin 99, f (mirror (i.castLE (by norm_num)))) := by
        rw [hupper, add_left_comm]
    _ = _ := by rw [← Finset.sum_add_distrib]; rfl

/-- A folded product is the two products of its pair, since the pair has one coefficient. -/
theorem prodPair_toNat_eq_add (L : Line) (i : Fin 99) :
    (prodPair L i).toNat =
      L[i.castLE (show 99 ≤ 199 by norm_num)].toNat * (K (i.castLE (by norm_num))).toNat +
      L[mirror (i.castLE (by norm_num))].toNat * (K (mirror (i.castLE (by norm_num)))).toNat := by
  rw [K_mirror, prodPair_toNat, preadd_toNat, Nat.add_mul]
  rfl

/-! ### The statements -/

/-- Settles O36: the sum of MAC folded at the centre, pair by pair. -/
theorem foldingKeepsTheInnerProduct : Obligations.FoldingKeepsTheInnerProduct := by
  intro L
  rw [mac, sum_taps_eq_centre_add_pairs, prodCentre_toNat]
  simp only [prodPair_toNat_eq_add]
  rfl

/-- Settles O31: the symmetry and the rising half are read off the table; the falling half and the maximum follow. -/
theorem romIsASymmetricPeak : Obligations.RomIsASymmetricPeak :=
  ⟨fun i => (K_mirror i).symm, K_lt_succ, K_succ_lt, K_peak, fun _ hi => K_lt_peak hi, K_first, K_last⟩

end Sys2Proof.Machine
end

section
/-! PROOFS. The encoding and the program text (30_encoding.md): the fields of the command word, masking and decoding of the
word the ports form, the words of the text lines, and after them the theorems that settle the statements. -/

namespace Sys2Proof

open Machine

/-! ### Concatenated bit vectors -/

/-- A concatenation as a number: the upper part counts in units of the lower part's range. -/
theorem toNat_append_eq_add {m n : Nat} (x : BitVec m) (y : BitVec n) :
    (x ++ y).toNat = x.toNat * 2 ^ n + y.toNat := by
  rw [BitVec.toNat_append, ← Nat.shiftLeft_add_eq_or_of_lt y.isLt, Nat.shiftLeft_eq]

/-- The words that begin with `a` are those whose upper field is `a`. -/
theorem exists_eq_append_iff {m n : Nat} (a : BitVec m) (w : BitVec (m + n)) :
    (∃ x : BitVec n, w = a ++ x) ↔ w.extractLsb' n m = a := by
  constructor
  · rintro ⟨x, rfl⟩
    exact BitVec.extractLsb'_append_eq_left
  · intro h
    have hw : w.extractLsb' n m ++ w.extractLsb' 0 n = w := by
      rw [BitVec.extractLsb'_append_extractLsb'_eq_extractLsb' (Nat.zero_add n).symm, BitVec.extractLsb'_eq_self]
    exact ⟨w.extractLsb' 0 n, h ▸ hw.symm⟩

/-! ### The fields of the word the ports form (R56) -/

@[simp] theorem rstBit_word (i : Inputs) : rstBit i.word = i.rst := by
  rw [rstBit, Inputs.getLsbD_word]; simp

@[simp] theorem enBit_word (i : Inputs) : enBit i.word = i.en := by
  rw [enBit, Inputs.getLsbD_word]; simp

@[simp] theorem phaseField_word (i : Inputs) : phaseField i.word = i.phaseIn :=
  BitVec.extractLsb'_append_eq_right

@[simp] theorem dutyField_word (i : Inputs) : dutyField i.word = i.dutyIn :=
  calc dutyField i.word
      = (BitVec.ofBool i.rst ++ BitVec.ofBool i.en ++ i.dutyIn).extractLsb' 0 8 :=
        BitVec.extractLsb'_append_eq_of_le le_rfl
    _ = i.dutyIn := BitVec.extractLsb'_append_eq_right

/-- A field as a number is its byte of the word, unchanged (R57). -/
theorem dutyField_toNat (w : CommandWord) : (dutyField w).toNat = w.toNat / 256 % 256 := by
  rw [dutyField, BitVec.extractLsb'_toNat, Nat.shiftRight_eq_div_pow]

theorem phaseField_toNat (w : CommandWord) : (phaseField w).toNat = w.toNat % 256 := by
  rw [phaseField, BitVec.extractLsb'_toNat, Nat.shiftRight_zero]

/-- The ports read back from their word. -/
@[simp] theorem inputsOf_word (i : Inputs) : inputsOf i.word = i := by
  simp [inputsOf]

/-- Every word is the word of its ports. -/
@[simp] theorem word_inputsOf (w : CommandWord) : (inputsOf w).word = w := by
  apply BitVec.eq_of_getLsbD_eq
  intro k hk
  rw [Inputs.getLsbD_word]
  simp only [inputsOf, rstBit, enBit, dutyField, phaseField, BitVec.getLsbD_extractLsb']
  split_ifs with h1 h2 h3
  · simp [h1]
  · simp [show k - 8 < 8 by omega, show 8 + (k - 8) = k by omega]
  · rw [h3]
  · simp [show k = 17 by omega]

@[simp] theorem Inputs.word_inj {i j : Inputs} : i.word = j.word ↔ i = j :=
  Function.LeftInverse.injective inputsOf_word |>.eq_iff

theorem Inputs.word_toNat (i : Inputs) :
    i.word.toNat = i.rst.toNat * 2 ^ 17 + i.en.toNat * 2 ^ 16 + i.dutyIn.toNat * 2 ^ 8 + i.phaseIn.toNat := by
  simp only [Inputs.word, toNat_append_eq_add, BitVec.toNat_ofBool]
  omega

/-! ### Decoding and masking the word the ports form (R58) -/

@[simp] theorem decode_eq_reset_iff (w : CommandWord) : decode w = .reset ↔ rstBit w = true := by
  rw [decode]; split_ifs <;> simp [*]

@[simp] theorem decode_eq_update_iff (w : CommandWord) (d p : Byte) :
    decode w = .update d p ↔ rstBit w = false ∧ enBit w = true ∧ dutyField w = d ∧ phaseField w = p := by
  rw [decode]; split_ifs <;> simp [*]

@[simp] theorem decode_eq_hold_iff (w : CommandWord) : decode w = .hold ↔ rstBit w = false ∧ enBit w = false := by
  rw [decode]; split_ifs <;> simp [*]

/-- AND of two words, port by port. -/
theorem Inputs.word_and_word (i j : Inputs) :
    i.word &&& j.word =
      Inputs.word ⟨i.rst && j.rst, i.en && j.en, i.dutyIn &&& j.dutyIn, i.phaseIn &&& j.phaseIn⟩ := by
  apply BitVec.eq_of_getLsbD_eq
  intro k _
  rw [BitVec.getLsbD_and]
  simp only [Inputs.getLsbD_word]
  split_ifs
  · simp
  · simp
  · rfl
  · by_cases hk : k = 17 <;> simp [hk]

/-- The mask of the RESET row keeps `rst`. -/
@[simp] theorem Inputs.word_and_rstMask (i : Inputs) : i.word &&& 0x20000#18 = Inputs.word ⟨i.rst, false, 0, 0⟩ := by
  rw [show 0x20000#18 = Inputs.word ⟨true, false, 0, 0⟩ from rfl, Inputs.word_and_word]
  simp

/-- The mask of the UPDATE and HOLD rows keeps `rst` and `en`. -/
@[simp] theorem Inputs.word_and_rstEnMask (i : Inputs) : i.word &&& 0x30000#18 = Inputs.word ⟨i.rst, i.en, 0, 0⟩ := by
  rw [show 0x30000#18 = Inputs.word ⟨true, true, 0, 0⟩ from rfl, Inputs.word_and_word]
  simp

theorem Inputs.exists_word_eq (w : CommandWord) : ∃ i : Inputs, i.word = w := ⟨inputsOf w, word_inputsOf w⟩

@[simp] theorem decode_encode (j : Instr) : decode (encode j) = j := by
  cases j with
  | reset => simp [encode]
  | update d p => simp [encode]
  | hold => simp [encode]

/-- A word decodes to an operation exactly when it is the canonical word in the bits that are not ignored (R60). -/
theorem decode_eq_iff (w : CommandWord) (j : Instr) : decode w = j ↔ w &&& significantBits j = encode j := by
  obtain ⟨i, rfl⟩ := Inputs.exists_word_eq w
  obtain ⟨r, e, d, p⟩ := i
  cases j with
  | reset => simp [significantBits, encode]
  | update d' p' =>
    rw [significantBits, show 0x3FFFF#18 = BitVec.allOnes 18 from rfl, BitVec.and_allOnes]
    simp [encode]
  | hold => simp [significantBits, encode]

/-! ### The operation map (R58) -/

theorem resetRow_selects_iff (w : CommandWord) : resetRow.selects w = true ↔ decode w = .reset :=
  (resetRow.selects_iff w).trans (decode_eq_iff w .reset).symm

theorem holdRow_selects_iff (w : CommandWord) : holdRow.selects w = true ↔ decode w = .hold :=
  (holdRow.selects_iff w).trans (decode_eq_iff w .hold).symm

theorem updateRow_selects_iff (w : CommandWord) :
    updateRow.selects w = true ↔ ∃ d p, decode w = .update d p := by
  obtain ⟨i, rfl⟩ := Inputs.exists_word_eq w
  rw [Row.selects_iff, updateRow, show 0x10000#18 = Inputs.word ⟨false, true, 0, 0⟩ from rfl]
  simp

theorem rowOf_mem_rows (j : Instr) : rowOf j ∈ rows := by
  cases j <;> simp [rowOf, rows]

/-- The rows are disjoint and cover all words: a row selects a word exactly when it is the row of the operation
decoded. -/
theorem Row.selects_iff_eq_rowOf {r : Row} (hr : r ∈ rows) (w : CommandWord) :
    r.selects w = true ↔ r = rowOf (decode w) := by
  simp only [rows, List.mem_cons, List.not_mem_nil, or_false] at hr
  obtain rfl | rfl | rfl := hr
  · rw [resetRow_selects_iff]
    cases decode w <;> simp [rowOf, resetRow, updateRow, holdRow]
  · rw [updateRow_selects_iff]
    cases decode w <;> simp [rowOf, resetRow, updateRow, holdRow]
  · rw [holdRow_selects_iff]
    cases decode w <;> simp [rowOf, resetRow, updateRow, holdRow]

/-! ### The words of RESET and HOLD (R60) -/

theorem extractLsb'_rst_word (i : Inputs) : i.word.extractLsb' 17 1 = BitVec.ofBool i.rst :=
  calc i.word.extractLsb' 17 1
      = (BitVec.ofBool i.rst ++ BitVec.ofBool i.en ++ i.dutyIn).extractLsb' 9 1 :=
        BitVec.extractLsb'_append_eq_of_le (by decide)
    _ = (BitVec.ofBool i.rst ++ BitVec.ofBool i.en).extractLsb' 1 1 := BitVec.extractLsb'_append_eq_of_le (by decide)
    _ = BitVec.ofBool i.rst := BitVec.extractLsb'_append_eq_left

theorem extractLsb'_rst_en_word (i : Inputs) :
    i.word.extractLsb' 16 2 = BitVec.ofBool i.rst ++ BitVec.ofBool i.en :=
  calc i.word.extractLsb' 16 2
      = (BitVec.ofBool i.rst ++ BitVec.ofBool i.en ++ i.dutyIn).extractLsb' 8 2 :=
        BitVec.extractLsb'_append_eq_of_le (by decide)
    _ = BitVec.ofBool i.rst ++ BitVec.ofBool i.en := BitVec.extractLsb'_append_eq_left

theorem decode_eq_reset_iff_exists_append (w : CommandWord) :
    decode w = .reset ↔ ∃ x : BitVec 17, w = 1#1 ++ x := by
  refine Iff.trans ?_ (exists_eq_append_iff (m := 1) (n := 17) 1#1 w).symm
  obtain ⟨i, rfl⟩ := Inputs.exists_word_eq w
  have hbit : ∀ r : Bool, r = true ↔ BitVec.ofBool r = 1#1 := by decide
  rw [decode_eq_reset_iff, rstBit_word, extractLsb'_rst_word]
  exact hbit _

theorem decode_eq_hold_iff_exists_append (w : CommandWord) :
    decode w = .hold ↔ ∃ x : BitVec 16, w = 0#2 ++ x := by
  refine Iff.trans ?_ (exists_eq_append_iff (m := 2) (n := 16) 0#2 w).symm
  obtain ⟨i, rfl⟩ := Inputs.exists_word_eq w
  have hbits : ∀ r e : Bool, (r = false ∧ e = false) ↔ BitVec.ofBool r ++ BitVec.ofBool e = 0#2 := by decide
  rw [decode_eq_hold_iff, rstBit_word, enBit_word, extractLsb'_rst_en_word]
  exact hbits _ _

theorem Machine.step_presentNext (s : State) (w : CommandWord) : step (s.presentNext w) = exec (decode w) s :=
  step_cons rfl

/-- A step does not see the bits that the decoder ignores. -/
theorem Machine.step_presentNext_congr (s : State) {v w : CommandWord} (h : decode v = decode w) :
    step (s.presentNext v) = step (s.presentNext w) := by
  rw [step_presentNext, step_presentNext, h]

/-! ### The program text (R63, R64) -/

@[simp] theorem operandInRange_iff (v : Nat) : operandInRange v = true ↔ v ≤ 255 := decide_eq_true_iff

theorem TextLine.assemble_of_wellFormed {t : TextLine} (h : t.wellFormed = true) :
    t.assemble = .ok (t.expand.map encode) := if_pos h

theorem TextLine.assemble_of_not_wellFormed {t : TextLine} (h : ¬ t.wellFormed = true) :
    t.assemble = .error .operandOutOfRange := if_neg h

theorem TextLine.assemble_update {d p : Nat} (hd : d ≤ 255) (hp : p ≤ 255) :
    (TextLine.update d p).assemble = .ok [encode (updateOf d p)] :=
  assemble_of_wellFormed (by simp [wellFormed, hd, hp])

theorem encode_updateOf_toNat {d p : Nat} (hd : d ≤ 255) (hp : p ≤ 255) :
    (encode (updateOf d p)).toNat = 0x10000 + 256 * d + p := by
  rw [updateOf, encode, Inputs.word_toNat]
  simp only [BitVec.toNat_ofNat, Bool.toNat_false, Bool.toNat_true]
  omega

@[simp] theorem alternate_length (a b : Instr) (n : Nat) : (alternate a b n).length = n := by
  induction n generalizing a b with
  | zero => rfl
  | succ n ih => simp [alternate, ih]

/-- The first form stands at the even places, the second at the odd ones. -/
theorem alternate_getElem? (a b : Instr) {n k : Nat} (hk : k < n) :
    (alternate a b n)[k]? = some (if k % 2 = 0 then a else b) := by
  induction n generalizing a b k with
  | zero => omega
  | succ n ih =>
    cases k with
    | zero => rfl
    | succ k =>
      rw [alternate, List.getElem?_cons_succ, ih b a (by omega)]
      split_ifs
      · omega
      · rfl
      · rfl
      · omega

/-! ### The statements -/

/-- Settles O5: both words are taken apart into ports, and the mask keeps the ports the operation does not ignore. -/
theorem decodeInvertsEncode : Obligations.DecodeInvertsEncode :=
  fun j => ⟨decode_encode j, fun w => decode_eq_iff w j⟩

/-- Settles O1: a row selects a word exactly when it is the row of the operation decoded, so there is exactly one. -/
theorem operationMapIsDisjointAndTotal : Obligations.OperationMapIsDisjointAndTotal := by
  refine ⟨rfl, fun w => ⟨?_, ?_, ?_, ?_, ?_⟩⟩
  · exact ⟨rowOf (decode w), ⟨rowOf_mem_rows _, (Row.selects_iff_eq_rowOf (rowOf_mem_rows _) w).2 rfl⟩,
      fun r ⟨hr, hs⟩ => (Row.selects_iff_eq_rowOf hr w).1 hs⟩
  · exact (Row.selects_iff_eq_rowOf (rowOf_mem_rows _) w).2 rfl
  · exact (decode_eq_reset_iff w).2
  · exact fun hr he => (decode_eq_update_iff w _ _).2 ⟨hr, he, rfl, rfl⟩
  · exact fun hr he => (decode_eq_hold_iff w).2 ⟨hr, he⟩

/-- Settles O2: the word bit by bit, and the two round trips. -/
theorem commandWordCarriesThePorts : Obligations.CommandWordCarriesThePorts := by
  refine ⟨fun i => ⟨rstBit_word i, enBit_word i, ?_, ?_, inputsOf_word i⟩, word_inputsOf⟩
  · intro k hk
    rw [Inputs.getLsbD_word, if_neg (by omega), if_pos (by omega), Nat.add_sub_cancel_left]
  · intro k hk
    rw [Inputs.getLsbD_word, if_pos hk]

/-- Settles O3: the operands are the fields, and a field is its bits of the word's number. -/
theorem operandsAreTheDataBytes : Obligations.OperandsAreTheDataBytes := by
  intro w d p h
  obtain ⟨-, -, rfl, rfl⟩ := (decode_eq_update_iff w d p).1 h
  exact ⟨dutyField_toNat w, phaseField_toNat w⟩

/-- Settles O4: the words by their leading bits, and a step sees a word through the decoder alone. -/
theorem ignoredFieldsChangeNothing : Obligations.IgnoredFieldsChangeNothing := by
  have hreset : ∀ x : BitVec 17, decode (1#1 ++ x) = .reset := fun x =>
    (decode_eq_reset_iff_exists_append _).2 ⟨x, rfl⟩
  have hhold : ∀ x : BitVec 16, decode (0#2 ++ x) = .hold := fun x =>
    (decode_eq_hold_iff_exists_append _).2 ⟨x, rfl⟩
  exact ⟨decode_eq_reset_iff_exists_append, decode_eq_hold_iff_exists_append,
    fun s x y => step_presentNext_congr s ((hreset x).trans (hreset y).symm),
    fun s x y => step_presentNext_congr s ((hhold x).trans (hhold y).symm), rfl, rfl⟩

/-- Settles O7: an UPDATE line is well formed exactly when both operands are in range. -/
theorem commandTextAssembles : Obligations.CommandTextAssembles := by
  refine ⟨rfl, rfl, fun d p hd hp => ⟨_, TextLine.assemble_update hd hp, encode_updateOf_toNat hd hp⟩, ?_⟩
  intro d p h
  apply TextLine.assemble_of_not_wellFormed
  simp only [TextLine.wellFormed, Bool.and_eq_true, operandInRange_iff]
  omega

/-- Settles O8: a repetition encodes to repeated words, and ALT's places alternate. -/
theorem pseudoInstructionsExpand : Obligations.PseudoInstructionsExpand := by
  refine ⟨?_, ?_, ?_, rfl⟩
  · intro n d p hd hp
    refine ⟨_, TextLine.assemble_update hd hp, ?_⟩
    rw [TextLine.assemble_of_wellFormed (by simp [TextLine.wellFormed, hd, hp]), TextLine.expand, List.map_replicate]
  · intro n
    rw [TextLine.assemble_of_wellFormed rfl, TextLine.expand, List.map_replicate]
    rfl
  · intro n d1 p1 d2 p2 hd1 hp1 hd2 hp2
    refine ⟨_, TextLine.assemble_of_wellFormed (by simp [TextLine.wellFormed, hd1, hp1, hd2, hp2]), ?_, ?_⟩
    · rw [TextLine.expand, List.length_map, alternate_length]
    · intro k hk
      rw [TextLine.expand, List.getElem?_map, alternate_getElem? _ _ hk, Option.map_some]
      exact ⟨fun h => by rw [if_pos h], fun h => by rw [if_neg (by omega)]⟩

/-- Settles O6: each word is closed, and the decoder evaluates on it. -/
theorem writtenOutWordsDecode : Obligations.WrittenOutWordsDecode :=
  ⟨rfl, rfl, rfl, rfl, rfl, rfl, rfl, rfl⟩

/-- Settles O10: the two halves of a concatenation and its value. -/
theorem outputWordFields : Obligations.OutputWordFields := by
  intro o
  refine ⟨BitVec.extractLsb'_append_eq_left, BitVec.extractLsb'_append_eq_right, ?_⟩
  rw [outputWord, toNat_append_eq_add, Nat.mul_comm]
  rfl

end Sys2Proof
end

section
/-! PROOFS. The delay-line shifter (40_delay_line_shifter.md): SHIFT and the sample history element by element, what
each operation does to the two invariants of the lines, and after them the theorems that settle the statements. -/

namespace Sys2Proof.Machine

/-! ### SHIFT (R70), by the newest element and the 198 others -/

@[simp] theorem shift_getElem_finLast (L : Line) (x : Byte) : (shift L x)[Fin.last 198] = x :=
  shift_getElem_last L x

@[simp] theorem shift_getElem_castSucc (L : Line) (x : Byte) (j : Fin 198) :
    (shift L x)[j.castSucc] = L[j.succ] :=
  shift_getElem_of_lt L x j j.isLt

/-- The oldest element matters to nothing. -/
theorem shift_congr {L M : Line} (h : ∀ j : Fin 198, L[j.succ] = M[j.succ]) (x : Byte) : shift L x = shift M x := by
  refine Vector.ext fun i hi => ?_
  rw [shift_getElem, shift_getElem]
  split_ifs with hlt
  · exact h ⟨i, hlt⟩
  · rfl

/-- Pushing the oldest element again rotates the line by one place. -/
theorem shift_oldest_getElem (L : Line) (i : Fin 199) : (shift L L[0])[i] = L[i + 1] := by
  induction i using Fin.lastCases with
  | last => exact shift_getElem_last L L[0]
  | cast j => simp only [shift_getElem_castSucc, Fin.coeSucc_eq_succ]

@[simp] theorem shift_zero_zero : shift Line.zero 0#8 = Line.zero := by
  refine Vector.ext fun i hi => ?_
  rw [shift_getElem]
  split_ifs <;> simp only [Line.zero_getElem]

/-! ### A property of all samples -/

theorem forall_zero_getElem {Q : Byte → Prop} (h0 : Q 0) (i : Fin 199) : Q Line.zero[i] :=
  (Line.zero_getElem i i.isLt).symm ▸ h0

/-- SHIFT writes only the sample and old elements. -/
theorem forall_shift_getElem {Q : Byte → Prop} {L : Line} {x : Byte} (hL : ∀ i : Fin 199, Q L[i]) (hx : Q x)
    (i : Fin 199) : Q (shift L x)[i] := by
  induction i using Fin.lastCases with
  | last => rw [shift_getElem_finLast]; exact hx
  | cast j => rw [shift_getElem_castSucc]; exact hL j.succ

/-- Taking the oldest command leaves only samples there were before, in the state and in the operation taken. -/
theorem State.SamplesIn.fetch {Q : Byte → Prop} {s : State} (hs : s.SamplesIn Q) :
    (fetch s).2.SamplesIn Q ∧ ∀ d p, (fetch s).1 = .update d p → Q d ∧ Q p := by
  obtain ⟨hduty, hphase, hcommands⟩ := hs
  cases hc : s.commands with
  | nil => rw [fetch_nil s hc]; exact ⟨⟨hduty, hphase, hcommands⟩, nofun⟩
  | cons w ws =>
    rw [hc] at hcommands
    rw [fetch_cons s w ws hc]
    exact ⟨⟨hduty, hphase, fun v hv => hcommands v (List.mem_cons_of_mem w hv)⟩, hcommands w List.mem_cons_self⟩

/-- An operation keeps the property when its own operands have it. -/
theorem State.SamplesIn.exec {Q : Byte → Prop} (h0 : Q 0) {i : Instr} {s t : State} (hs : s.SamplesIn Q)
    (hi : ∀ d p, i = .update d p → Q d ∧ Q p) (ht : exec i s = .next t) : t.SamplesIn Q := by
  obtain ⟨hduty, hphase, hcommands⟩ := hs
  obtain ⟨-, rfl⟩ | ⟨d, p, hdp, rfl⟩ | ⟨-, rfl⟩ := exec_cases ht
  · exact ⟨forall_zero_getElem h0, forall_zero_getElem h0, hcommands⟩
  · obtain ⟨hd, hp⟩ := hi d p hdp
    exact ⟨forall_shift_getElem hduty hd, forall_shift_getElem hphase hp, hcommands⟩
  · exact ⟨hduty, hphase, hcommands⟩

/-! ### The sample history (R74) -/

/-- A new sample changes no earlier tick. -/
theorem sampleAt_append_of_lt {xs : List Byte} {k : Int} (hk : k < xs.length) (x : Byte) :
    sampleAt (xs ++ [x]) k = sampleAt xs k := by
  unfold sampleAt
  split_ifs with hneg
  · rfl
  · exact List.getD_append xs [x] 0#8 k.toNat (by omega)

/-- A new sample is that of the tick after the last. -/
@[simp] theorem sampleAt_append_length (xs : List Byte) (x : Byte) : sampleAt (xs ++ [x]) xs.length = x := by
  simp [sampleAt]

/-- R74's step: the sample pushed is at the newest index, and every other sample one place further down. -/
theorem Window.shift {xs : List Byte} {L : Line} (h : Window xs L) (x : Byte) :
    Window (xs ++ [x]) (shift L x) := by
  intro i
  rw [List.length_append, List.length_singleton]
  induction i using Fin.lastCases with
  | last =>
    have htick : ((xs.length + 1 : Nat) : Int) - 1 - 198 + (Fin.last 198).val = xs.length := by
      rw [Fin.val_last]; omega
    rw [shift_getElem_finLast, htick, sampleAt_append_length]
  | cast j =>
    have htick : ((xs.length + 1 : Nat) : Int) - 1 - 198 + j.castSucc.val = xs.length - 1 - 198 + j.succ.val := by
      rw [Fin.val_castSucc, Fin.val_succ]; omega
    have hlt : (xs.length : Int) - 1 - 198 + j.succ.val < xs.length := by omega
    rw [shift_getElem_castSucc, htick, sampleAt_append_of_lt hlt]
    exact h j.succ

/-- The invariant of R74 on both lines: they show the last 199 duty and phase samples of the history. -/
def State.ShowsHistory (s : State) (h : List (Byte × Byte)) : Prop :=
  Window (h.map Prod.fst) s.duty ∧ Window (h.map Prod.snd) s.phase

/-- An operation changes the lines as it changes the history. -/
theorem State.ShowsHistory.exec {h : List (Byte × Byte)} {i : Instr} {s t : State} (hs : s.ShowsHistory h)
    (ht : exec i s = .next t) : t.ShowsHistory (advance h i) := by
  obtain ⟨hduty, hphase⟩ := hs
  obtain ⟨rfl, rfl⟩ | ⟨d, p, rfl, rfl⟩ | ⟨rfl, rfl⟩ := exec_cases ht
  · exact ⟨window_nil_zero, window_nil_zero⟩
  · simp only [State.ShowsHistory, advance, List.map_append]
    exact ⟨hduty.shift d, hphase.shift p⟩
  · exact ⟨hduty, hphase⟩

/-- Taking a command touches no line. -/
theorem State.ShowsHistory.fetch {h : List (Byte × Byte)} {s : State} (hs : s.ShowsHistory h) :
    (fetch s).2.ShowsHistory h := by
  unfold State.ShowsHistory
  rw [fetch_duty, fetch_phase]
  exact hs

/-! ### The statements -/

/-- Settles O23: a fetch brings in no new sample, and an operation writes zeros, its own operands or old elements. -/
theorem stepKeepsSamplesIn : Obligations.StepKeepsSamplesIn := by
  intro Q h0 s t hs ht
  obtain ⟨hfetched, hoperands⟩ := hs.fetch
  exact hfetched.exec h0 hoperands ht

/-- Settles O25: RESET shows the empty history, UPDATE appends its pair to what is shown, HOLD changes neither. -/
theorem stepKeepsTheWindow : Obligations.StepKeepsTheWindow := by
  intro h s t hduty hphase ht
  have hs : s.ShowsHistory h := ⟨hduty, hphase⟩
  exact hs.fetch.exec ht

/-- Settles O20: the new fields of each operation, and the one command a fetch takes. -/
theorem operationFrames : Obligations.OperationFrames := by
  refine ⟨fun i s t ht => ⟨exec_commands ht, ?_⟩, fun s t ht => (exec_commands ht).trans (fetch_commands s)⟩
  obtain ⟨rfl, rfl⟩ | ⟨d, p, rfl, rfl⟩ | ⟨rfl, rfl⟩ := exec_cases ht
  · exact ⟨nofun, fun _ => ⟨rfl, rfl⟩, nofun⟩
  · refine ⟨nofun, nofun, fun d' p' hi => ?_⟩
    cases hi
    exact ⟨rfl, rfl⟩
  · exact ⟨fun _ => ⟨rfl, rfl⟩, nofun, nofun⟩

/-- Settles O27: the elements after a SHIFT, the element it forgets, the rotation and the zero line. -/
theorem shiftMovesEveryElement : Obligations.ShiftMovesEveryElement := fun L x =>
  ⟨shift_getElem_castSucc L x, shift_getElem_last L x, fun _ h => shift_congr h x, shift_oldest_getElem L,
    shift_zero_zero⟩

/-- Settles O29: the simulation of SHIFT and CLEAR by the ring's push and clear. -/
theorem ringBufferShowsTheLine : Obligations.RingBufferShowsTheLine :=
  ⟨fun _ _ x h => h.push x, fun h _ => Ring.shows_cleared h⟩

/-- Settles O28: CLEAR of any line is the zero line. -/
theorem clearZeroesEveryElement : Obligations.ClearZeroesEveryElement := by
  intro L i
  rw [clearLine_eq_zero]
  exact Line.zero_getElem i i.isLt

end Sys2Proof.Machine
end

section
/-! PROOFS. The accumulator and what the quantizer makes of it (41_coefficient_multiplier_tree.md,
42_quantizer_saturator.md): MAC on lines of simple shape, the widths of the products, trees of 32-bit adders, the
outputs as rounded accumulators, and after them the theorems that settle the statements. -/

namespace Sys2Proof.Machine

/-! ### MAC (R83) -/

theorem byte_toNat_le (x : Byte) : x.toNat ≤ 255 := Nat.le_of_lt_succ x.isLt

/-- No accumulator exceeds that of the line of all 255. -/
theorem mac_le (L : Line) : mac L ≤ 255 * 9999998 :=
  mac_le_of_le fun i => byte_toNat_le L[i]

theorem mac_lt_two_pow (L : Line) : mac L < 2 ^ 32 :=
  (mac_le L).trans_lt (by norm_num)

/-- A constant line leaves only the sum of the coefficients. -/
theorem mac_of_forall_eq {L : Line} {v : Byte} (h : ∀ i : Fin 199, L[i] = v) : mac L = v.toNat * 9999998 :=
  le_antisymm (mac_le_of_le fun i => (congrArg BitVec.toNat (h i)).le)
    (le_mac_of_le fun i => (congrArg BitVec.toNat (h i)).ge)

/-- The two end taps are 0 (R37), so the end elements do not matter. -/
theorem mac_congr_of_inner {L M : Line} (h : ∀ i : Fin 199, i ≠ 0 → i ≠ 198 → L[i] = M[i]) : mac L = mac M := by
  refine mac_congr fun i => ?_
  by_cases h0 : i = 0
  · rw [h0, K_first]; rfl
  · by_cases h198 : i = 198
    · rw [h198, K_last]; rfl
    · rw [h i h0 h198]

/-- A line that is zero but at `j` leaves the one product. -/
theorem mac_of_forall_ne {L : Line} {j : Fin 199} (h : ∀ i : Fin 199, i ≠ j → L[i] = 0#8) :
    mac L = L[j].toNat * (K j).toNat := by
  refine Finset.sum_eq_single_of_mem j (Finset.mem_univ j) fun i _ hi => ?_
  rw [h i hi, BitVec.toNat_zero, Nat.zero_mul]

/-- MAC as a sum of integers, for lines given by integer expressions. -/
theorem mac_cast (L : Line) : (mac L : Int) = ∑ i : Fin 199, (L[i].toNat : Int) * (K i).toNat := by
  simp only [mac, Nat.cast_sum, Nat.cast_mul]

theorem mac_linear {a b : Int} {L M N : Line}
    (h : ∀ i : Fin 199, (L[i].toNat : Int) = a * M[i].toNat + b * N[i].toNat) :
    (mac L : Int) = a * mac M + b * mac N := by
  simp only [mac_cast, h, Finset.mul_sum, ← Finset.sum_add_distrib]
  exact Finset.sum_congr rfl fun i _ => by ring

/-! ### The widths of the products (R81, R82) -/

theorem preadd_toNat_le (L : Line) (i : Fin 99) : (preadd L i).toNat ≤ 510 := by
  rw [preadd_toNat]
  exact Nat.add_le_add (byte_toNat_le _) (byte_toNat_le _)

theorem K_before_peak : (K 98).toNat = 120200 := by decide +kernel

/-- A folded pair's coefficient is at most the one next to the peak, because the table rises up to the peak. -/
theorem K_le_of_pair (i : Fin 99) : (K ⟨i.val, by omega⟩).toNat ≤ 120200 := by
  have h : (⟨i.val, by omega⟩ : Fin 100) ≤ 98 := Fin.le_def.2 (Nat.le_of_lt_succ i.isLt)
  exact (K_strictMono_to_peak.monotone h).trans_eq K_before_peak

theorem prodPair_toNat_le (L : Line) (i : Fin 99) : (prodPair L i).toNat ≤ 61302000 := by
  rw [prodPair_toNat]
  exact Nat.mul_le_mul (preadd_toNat_le L i) (K_le_of_pair i)

theorem prodCentre_toNat_le (L : Line) : (prodCentre L).toNat ≤ 30663750 := by
  rw [prodCentre_toNat]
  exact Nat.mul_le_mul (byte_toNat_le L[99]) (K_le_peak 99)

theorem prodPair_zero_toNat (L : Line) : (prodPair L 0).toNat = 0 := by
  have h : (K ⟨(0 : Fin 99).val, by omega⟩).toNat = 0 := congrArg BitVec.toNat K_first
  rw [prodPair_toNat, h, Nat.mul_zero]

/-! ### Adder trees (R80, R87) -/

/-- 32-bit adders compute the sum of the leaves modulo `2^32`, whatever the tree's shape. -/
theorem AdderTree.eval_toNat {α : Type} (f : α → BitVec 32) (t : AdderTree α) :
    (t.eval f).toNat = (t.leaves.map fun a => (f a).toNat).sum % 2 ^ 32 := by
  induction t with
  | leaf a => rw [eval, leaves, List.map_singleton, List.sum_singleton, Nat.mod_eq_of_lt (f a).isLt]
  | add l r ihl ihr => rw [eval, leaves, BitVec.toNat_add, ihl, ihr, List.map_append, List.sum_append, ← Nat.add_mod]

/-- A tree over all `n` terms, in any order, computes their sum where it fits 32 bits. -/
theorem AdderTree.eval_toNat_of_perm {n : Nat} {f : Fin n → BitVec 32} {t : AdderTree (Fin n)}
    (ht : t.leaves.Perm (List.finRange n)) (hf : ∑ i, (f i).toNat < 2 ^ 32) :
    (t.eval f).toNat = ∑ i, (f i).toNat := by
  rw [eval_toNat, (ht.map _).sum_eq, ← Fin.sum_univ_def, Nat.mod_eq_of_lt hf]

theorem prodTerm_castSucc_toNat (L : Line) (i : Fin 99) : (prodTerm L i.castSucc).toNat = (prodPair L i).toNat := by
  rw [prodTerm, dif_pos (show i.castSucc.val < 99 from i.isLt)]
  exact BitVec.toNat_setWidth_of_le (by norm_num)

theorem prodTerm_last_toNat (L : Line) : (prodTerm L (Fin.last 99)).toNat = (prodCentre L).toNat := by
  rw [prodTerm, dif_neg (show ¬ (Fin.last 99).val < 99 from lt_irrefl 99)]
  exact BitVec.toNat_setWidth_of_le (by norm_num)

/-- The 100 folded products add up to MAC. -/
theorem sum_prodTerm_toNat (L : Line) : ∑ i, (prodTerm L i).toNat = mac L := by
  rw [Fin.sum_univ_castSucc, prodTerm_last_toNat, foldingKeepsTheInnerProduct L, add_comm]
  simp only [prodTerm_castSucc_toNat]

theorem plainTerm_toNat (L : Line) (i : Fin 199) : (plainTerm L i).toNat = L[i].toNat * (K i).toNat := by
  rw [plainTerm, BitVec.toNat_setWidth_of_le (by norm_num)]
  exact toNat_setWidth_mul_setWidth _ _ (by norm_num)

/-- The 199 plain products add up to MAC. -/
theorem sum_plainTerm_toNat (L : Line) : ∑ i, (plainTerm L i).toNat = mac L :=
  Finset.sum_congr rfl fun i _ => plainTerm_toNat L i

/-! ### Rounding an accumulator (R100) -/

/-- The coefficients add up to less than `10^7`, so rounding cannot carry a bound on the elements upwards. -/
theorem roundHalfAway_le_of_le_mul {S v : Int} (hv : 0 ≤ v) (h : S ≤ v * 9999998) : roundHalfAway S ≤ v := by
  rw [roundHalfAway_def]; split_ifs <;> omega

/-- The missing two units of each of the at most 255 are less than a half, so rounding makes up for them. -/
theorem le_roundHalfAway_of_mul_le {S v : Int} (hv0 : 0 ≤ v) (hv : v ≤ 255) (h : v * 9999998 ≤ S) :
    v ≤ roundHalfAway S := by
  rw [roundHalfAway_def, if_pos (by omega)]; omega

theorem roundHalfAway_mac_nonneg (L : Line) : 0 ≤ roundHalfAway (mac L) :=
  roundHalfAway_nonneg (Int.natCast_nonneg _)

theorem roundHalfAway_mac_le (L : Line) : roundHalfAway (mac L) ≤ 255 :=
  roundHalfAway_le_of_le_mul (by norm_num) (by exact_mod_cast mac_le L)

/-- The clamp does not act on a line's rounded accumulator. -/
theorem dutyOut_toNat (L : Line) : ((dutyOut L).toNat : Int) = roundHalfAway (mac L) :=
  clamp_toNat_of_mem (roundHalfAway_mac_nonneg L) (roundHalfAway_mac_le L)

/-- Neither does the modulus. -/
theorem phaseOut_toNat (L : Line) : ((phaseOut L).toNat : Int) = roundHalfAway (mac L) := by
  have h0 := roundHalfAway_mac_nonneg L
  have h1 := roundHalfAway_mac_le L
  rw [phaseOut, qphase, wrap_toNat]
  exact Int.emod_eq_of_lt h0 (by omega)

/-- Bounds on a line's elements are bounds on its rounded accumulator. -/
theorem roundHalfAway_mac_mem {L : Line} {lo hi : Nat} (h : ∀ i : Fin 199, lo ≤ L[i].toNat ∧ L[i].toNat ≤ hi) :
    (lo : Int) ≤ roundHalfAway (mac L) ∧ roundHalfAway (mac L) ≤ hi := by
  have hlo : lo ≤ 255 := (h 0).1.trans (byte_toNat_le L[0])
  constructor
  · exact le_roundHalfAway_of_mul_le (by omega) (by omega) (by exact_mod_cast le_mac_of_le fun i => (h i).1)
  · exact roundHalfAway_le_of_le_mul (by omega) (by exact_mod_cast mac_le_of_le fun i => (h i).2)

/-! ### Two-level lines (95_test_vectors.md V-T1, V-T2) -/

/-- What the coefficients of the 51 newest elements add up to. -/
theorem K_sum_newest : ∑ i : Fin 199, (if i.val < 148 then 0 else (K i).toNat) = 647062 := by decide +kernel

/-- The accumulator of a line with one level in the 148 older elements and another in the 51 newer ones: the older level
throughout, and the difference at the newer ones. -/
theorem mac_of_two_levels {L : Line} {a b : Int}
    (h : ∀ i : Fin 199, (L[i].toNat : Int) = if i.val < 148 then a else b) :
    (mac L : Int) = a * 9999998 + (b - a) * 647062 := by
  have hterm : ∀ i : Fin 199, (L[i].toNat : Int) * (K i).toNat =
      a * (K i).toNat + (b - a) * (if i.val < 148 then 0 else (K i).toNat : Nat) := by
    intro i
    rw [h i]
    split_ifs
    · simp
    · ring
  have hsum : (∑ i : Fin 199, ((K i).toNat : Int)) = 9999998 := by exact_mod_cast K_sum
  have hnewest : (∑ i : Fin 199, ((if i.val < 148 then 0 else (K i).toNat : Nat) : Int)) = 647062 := by
    exact_mod_cast K_sum_newest
  simp only [mac_cast, hterm]
  rw [Finset.sum_add_distrib, ← Finset.mul_sum, ← Finset.mul_sum, hsum, hnewest]

/-! ### The statements -/

/-- Settles O33: each corner case is a line of simple shape, and MAC is a sum linear in the elements. -/
theorem macIsTheInnerProduct : Obligations.MacIsTheInnerProduct :=
  ⟨fun L => ⟨rfl, mac_le L, mac_lt_two_pow L⟩, mac_zero, fun _ h => mac_of_forall_eq h,
    fun _ _ h => mac_congr_of_inner h, fun _ _ h => mac_of_forall_ne h, fun _ _ h => mac_of_forall_eq h, fun _ _ _ _ _ h => mac_linear h⟩

/-- Settles O34: the line of all 255 attains the bound. -/
theorem accumulatorBoundIsAttained : Obligations.AccumulatorBoundIsAttained := by
  have hmax : mac (Vector.replicate 199 255#8) = 255 * 9999998 :=
    mac_of_forall_eq (v := 255#8) fun i => by simp
  exact ⟨mac_le, by norm_num, _, hmax, by rw [hmax]; norm_num⟩

/-- Settles O35: the adder and the multipliers are as wide as their largest results need. -/
theorem preaddersAndMultipliersAreExact : Obligations.PreaddersAndMultipliersAreExact := fun L =>
  ⟨fun i => ⟨preadd_toNat L i, preadd_toNat_le L i, prodPair_toNat L i, prodPair_toNat_le L i⟩,
    prodCentre_toNat L, prodCentre_toNat_le L, prodPair_zero_toNat L⟩

/-- Settles O37: a tree sums its leaves modulo `2^32`, and both families of products add up to MAC, which fits. -/
theorem everyAdderTreeComputesMac : Obligations.EveryAdderTreeComputesMac := by
  constructor
  · intro L t ht
    have hsum := sum_prodTerm_toNat L
    exact (AdderTree.eval_toNat_of_perm ht (hsum ▸ mac_lt_two_pow L)).trans hsum
  · intro L t ht
    have hsum := sum_plainTerm_toNat L
    exact (AdderTree.eval_toNat_of_perm ht (hsum ▸ mac_lt_two_pow L)).trans hsum

/-- Settles O38: the common divisor of the taps comes out of the sum. -/
theorem accumulatorIsTheRealSum : Obligations.AccumulatorIsTheRealSum := by
  intro L
  rw [mac, Nat.cast_sum, Finset.sum_div]
  refine Finset.sum_congr rfl fun i _ => ?_
  rw [tap, Nat.cast_mul, mul_div_assoc]
  norm_num

/-- Settles O43: a line's accumulator rounds into the range of a byte, where clamp and modulus change nothing. -/
theorem clampAndWrapNeverAct : Obligations.ClampAndWrapNeverAct := fun L =>
  ⟨roundHalfAway_mac_nonneg L, roundHalfAway_mac_le L, dutyOut_toNat L, phaseOut_toNat L⟩

/-- Settles O53: both outputs are the rounded accumulator, which keeps the bounds of the elements. -/
theorem outputsStayWithinTheSamples : Obligations.OutputsStayWithinTheSamples := by
  intro L lo hi h
  have hround := roundHalfAway_mac_mem h
  constructor
  · rw [← dutyOut_toNat] at hround
    exact_mod_cast hround
  · rw [← phaseOut_toNat] at hround
    exact_mod_cast hround

/-- Settles O54: the accumulator is affine in `k`, and its distance from the tie tells which way it rounds. -/
theorem twoLevelTiesRoundAway : Obligations.TwoLevelTiesRoundAway := by
  intro L k hlo hhi h
  have hmac : (mac L : Int) = 1405000000 + k * 9999998 := by
    rw [mac_of_two_levels h]; ring
  refine ⟨hmac, ?_⟩
  rw [dutyOut_toNat, hmac, roundHalfAway_def, if_pos (by omega)]
  split_ifs <;> omega

end Sys2Proof.Machine
end

section
/-! PROOFS. The quantizer on all integers (42_quantizer_saturator.md): how far ROUND is from the quotient,
CLAMP and WRAP as numbers, and the theorems that settle the statements. -/

namespace Sys2Proof.Machine

/-! ### ROUND (R100) -/

/-- The half-open interval of accumulators that round to one answer: a tie belongs to the answer farther from zero. -/
theorem roundHalfAway_bounds (S : Int) :
    (0 ≤ S ∧ 10000000 * roundHalfAway S - 5000000 ≤ S ∧ S < 10000000 * roundHalfAway S + 5000000) ∨
    (S < 0 ∧ 10000000 * roundHalfAway S - 5000000 < S ∧ S ≤ 10000000 * roundHalfAway S + 5000000) := by
  rw [roundHalfAway_def]
  split_ifs with hS
  · exact .inl ⟨hS, by omega, by omega⟩
  · exact .inr ⟨by omega, by omega, by omega⟩

theorem two_mul_abs_sub_roundHalfAway_le (S : Int) : 2 * |S - 10000000 * roundHalfAway S| ≤ 10000000 := by
  have hdist : |S - 10000000 * roundHalfAway S| ≤ 5000000 := by
    rw [abs_le]
    obtain ⟨-, hlo, hhi⟩ | ⟨-, hlo, hhi⟩ := roundHalfAway_bounds S <;> omega
  omega

/-- A multiple of `m` within `m / 2` is a nearest one, because every other is at least `m` away from it. -/
theorem abs_sub_mul_le_abs_sub_mul {S m r : Int} (h : 2 * |S - m * r| ≤ m) (z : Int) :
    |S - m * r| ≤ |S - m * z| := by
  obtain rfl | hne := eq_or_ne z r
  · rfl
  have hm : 0 ≤ m := le_trans (by positivity) h
  have hapart : m ≤ |m * z - m * r| := by
    rw [← mul_sub, abs_mul, abs_of_nonneg hm]
    exact le_mul_of_one_le_right hm (Int.one_le_abs (sub_ne_zero.mpr hne))
  have htri : |m * z - m * r| ≤ |S - m * r| + |S - m * z| := by
    rw [abs_sub_comm S (m * z), add_comm]
    exact abs_sub_le (m * z) S (m * r)
  omega

/-- At a tie the answer lies beyond the accumulator, on the accumulator's side of zero. -/
theorem abs_lt_abs_roundHalfAway_of_tie {S : Int} (h : 2 * |S - 10000000 * roundHalfAway S| = 10000000) :
    |S| < |10000000 * roundHalfAway S| := by
  have htie : |S - 10000000 * roundHalfAway S| = 5000000 := by omega
  obtain ⟨hS, -, hhi⟩ | ⟨hS, hlo, -⟩ := roundHalfAway_bounds S
  · have hbelow : S = 10000000 * roundHalfAway S - 5000000 := by
      obtain hdiff | hdiff := (abs_eq (by norm_num)).mp htie <;> omega
    rw [abs_of_nonneg hS, abs_of_nonneg] <;> omega
  · have habove : S = 10000000 * roundHalfAway S + 5000000 := by
      obtain hdiff | hdiff := (abs_eq (by norm_num)).mp htie <;> omega
    rw [abs_of_neg hS, abs_of_neg] <;> omega

/-! ### CLAMP (R101) -/

theorem clamp_of_neg {z : Int} (h : z < 0) : clamp z = 0#8 := if_pos h

theorem clamp_of_gt {z : Int} (h : 255 < z) : clamp z = 255#8 := by
  rw [clamp, if_neg (by omega), if_pos h]

theorem clamp_toNat (z : Int) : ((clamp z).toNat : Int) = max 0 (min z 255) := by
  obtain h | h | ⟨h0, h1⟩ : z < 0 ∨ 255 < z ∨ 0 ≤ z ∧ z ≤ 255 := by omega
  · rw [clamp_of_neg h, BitVec.toNat_ofNat]; omega
  · rw [clamp_of_gt h, BitVec.toNat_ofNat]; omega
  · rw [clamp_toNat_of_mem h0 h1]; omega

/-- CLAMP is the identity on bytes. -/
theorem clamp_byte (b : Byte) : clamp (b.toNat : Int) = b := by
  have hb := byte_toNat_le b
  have h := clamp_toNat_of_mem (z := b.toNat) (by omega) (by omega)
  exact BitVec.eq_of_toNat_eq (by exact_mod_cast h)

theorem clamp_toNat_mono {y z : Int} (h : y ≤ z) : (clamp y).toNat ≤ (clamp z).toNat := by
  have hmax : max 0 (min y 255) ≤ max 0 (min z 255) := by gcongr
  rw [← clamp_toNat, ← clamp_toNat] at hmax
  exact_mod_cast hmax

/-! ### WRAP (R102) -/

/-- Truncating a two's-complement representation leaves the floored modulus of the smaller width. -/
theorem setWidth_ofInt_toNat {v w : Nat} (h : v ≤ w) (z : Int) :
    (((BitVec.ofInt w z).setWidth v).toNat : Int) = z % (2 ^ v : Nat) := by
  have hpos : (0 : Int) < (2 ^ w : Nat) := by positivity
  have hdvd : ((2 ^ v : Nat) : Int) ∣ (2 ^ w : Nat) := Int.natCast_dvd_natCast.mpr (pow_dvd_pow 2 h)
  rw [BitVec.toNat_setWidth, BitVec.toNat_ofInt, Int.natCast_mod, Int.toNat_of_nonneg (Int.emod_nonneg z hpos.ne'),
    Int.emod_emod_of_dvd z hdvd]

theorem wrap_eq_setWidth_ofInt {w : Nat} (h : 8 ≤ w) (z : Int) : wrap z = (BitVec.ofInt w z).setWidth 8 := by
  have hlow : ((wrap z).toNat : Int) = ((BitVec.ofInt w z).setWidth 8).toNat := by
    rw [wrap_toNat, setWidth_ofInt_toNat h]; rfl
  exact BitVec.eq_of_toNat_eq (by exact_mod_cast hlow)

/-! ### The statements -/

/-- Settles O39: the answer is within half of the quotient, which makes it nearest; at a tie it is the outer one. -/
theorem roundIsNearestHalfAwayFromZero : Obligations.RoundIsNearestHalfAwayFromZero := by
  refine ⟨fun S => ?_, by decide⟩
  have hhalf := two_mul_abs_sub_roundHalfAway_le S
  exact ⟨hhalf, abs_sub_mul_le_abs_sub_mul hhalf, abs_lt_abs_roundHalfAway_of_tie⟩

/-- Settles O40: CLAMP by its three ranges; its answer is a byte, which CLAMP leaves alone. -/
theorem clampSaturates : Obligations.ClampSaturates := by
  refine ⟨fun z => ⟨fun h => ?_, fun h => ?_, clamp_toNat_of_mem, clamp_byte (clamp z)⟩,
    fun _ _ => clamp_toNat_mono⟩
  · rw [clamp_of_neg h]; rfl
  · rw [clamp_of_gt h]; rfl

/-- Settles O41: 256 divides `2 ^ w`, so the low byte keeps the residue. -/
theorem wrapIsTheLowByte : Obligations.WrapIsTheLowByte := fun z =>
  ⟨wrap_toNat z, fun _ hw => wrap_eq_setWidth_ofInt (by omega) z⟩

/-- Settles O42: both quantizers are defined as the composition, and the examples evaluate. -/
theorem quantizersRoundFirst : Obligations.QuantizersRoundFirst :=
  ⟨fun _ => ⟨rfl, rfl⟩, by decide⟩

end Sys2Proof.Machine
end

section
/-! PROOFS. The three operations one by one, and runs of commands (43_symmetric_fir_filter.md): the machine against
R124's step function, the lines of a run against the sample history, each stream as a lane of its own, and after them
the theorems that settle the statements. -/

namespace Sys2Proof.Machine

/-! ### R124's step function -/

/-- RESET forgets both lines. -/
theorem stepWord_of_reset {w : CommandWord} (h : decode w = .reset) (lines : Line × Line) :
    stepWord lines w = ((Line.zero, Line.zero), (0#8, 0#8)) := by
  simp [stepWord, (decode_eq_reset_iff w).1 h, clearLine_eq_zero]

theorem stepWord_of_update {w : CommandWord} {d p : Byte} (h : decode w = .update d p) (lines : Line × Line) :
    stepWord lines w =
      ((shift lines.1 d, shift lines.2 p), (dutyOut (shift lines.1 d), phaseOut (shift lines.2 p))) := by
  obtain ⟨hrst, hen, rfl, rfl⟩ := (decode_eq_update_iff w d p).1 h
  simp [stepWord, hrst, hen]

theorem stepWord_of_hold {w : CommandWord} (h : decode w = .hold) (lines : Line × Line) :
    stepWord lines w = (lines, (dutyOut lines.1, phaseOut lines.2)) := by
  obtain ⟨hrst, hen⟩ := (decode_eq_hold_iff w).1 h
  simp [stepWord, hrst, hen]

/-- The operation a word selects is R124's step function of that word. -/
theorem stepWord_of_exec {s t : State} {w : CommandWord} (h : exec (decode w) s = .next t) :
    stepWord (s.duty, s.phase) w = ((t.duty, t.phase), out t) := by
  obtain ⟨hw, rfl⟩ | ⟨d, p, hw, rfl⟩ | ⟨hw, rfl⟩ := exec_cases h
  · rw [stepWord_of_reset hw]; simp [out]
  · rw [stepWord_of_update hw]; rfl
  · rw [stepWord_of_hold hw]; rfl

/-- A run of the machine over its command list is R124's iteration, and so is its observation. -/
theorem exists_run_eq_runWords {s : State} {ws : List CommandWord} (hc : s.commands = ws) :
    ∃ t : State, Host.Core.run Sys2Proof.core ws.length s = .next t ∧
      (t.duty, t.phase) = (runWords (s.duty, s.phase) ws).1 ∧ observe s = (runWords (s.duty, s.phase) ws).2 := by
  induction ws generalizing s with
  | nil => exact ⟨s, rfl, rfl, observe_nil hc⟩
  | cons w ws ih =>
    obtain ⟨u, hu⟩ := exec_total (decode w) (s.withCommands ws)
    have hstep : step s = .next u := (step_cons hc).trans hu
    have huc : u.commands = ws := exec_commands hu
    have hword : stepWord (s.duty, s.phase) w = ((u.duty, u.phase), out u) :=
      stepWord_of_exec (s := s.withCommands ws) hu
    obtain ⟨t, hrun, hlines, hobs⟩ := ih huc
    refine ⟨t, (run_of_step hstep ws.length).trans hrun, ?_, ?_⟩
    · rw [hlines, runWords, hword]
    · rw [observe_of_step hc hstep huc, hobs, runWords, hword]

theorem observe_withCommands (s : State) (ws : List CommandWord) :
    observe (s.withCommands ws) = (runWords (s.duty, s.phase) ws).2 := by
  obtain ⟨-, -, -, hobs⟩ := exists_run_eq_runWords (s := s.withCommands ws) rfl
  exact hobs

/-! ### Runs and the sample history (R74) -/

/-- A run over the command list carries the history shown at its start to the history of the commands. -/
theorem State.ShowsHistory.exists_run {s : State} {h : List (Byte × Byte)} {ws : List CommandWord}
    (hs : s.ShowsHistory h) (hc : s.commands = ws) :
    ∃ t : State, Host.Core.run Sys2Proof.core ws.length s = .next t ∧ t.ShowsHistory (history h ws) := by
  induction ws generalizing s h with
  | nil => exact ⟨s, rfl, hs⟩
  | cons w ws ih =>
    obtain ⟨u, hu⟩ := exec_total (decode w) (s.withCommands ws)
    have hsw : (s.withCommands ws).ShowsHistory h := hs
    obtain ⟨t, hrun, ht⟩ := ih (hsw.exec hu) (exec_commands hu)
    exact ⟨t, (run_of_step ((step_cons hc).trans hu) ws.length).trans hrun, ht⟩

/-- From reset the lines show the history of the commands and nothing before it. -/
theorem exists_run_reset (ws : List CommandWord) :
    ∃ t : State, Host.Core.run Sys2Proof.core ws.length (State.reset.withCommands ws) = .next t ∧
      t.ShowsHistory (history [] ws) :=
  State.ShowsHistory.exists_run (s := State.reset.withCommands ws) ⟨window_nil_zero, window_nil_zero⟩ rfl

/-- Any line is the window of some history: of its own elements. -/
theorem window_toList (L : Line) : Window L.toList L := by
  intro i
  have htick : (L.toList.length : Int) - 1 - 198 + i.val = i.val := by
    rw [Vector.length_toList]; omega
  rw [htick, sampleAt, if_neg (by omega), Int.toNat_natCast]
  simp

/-- Any state shows some history: its own elements, in pairs. -/
theorem State.showsHistory_zip (s : State) : s.ShowsHistory (s.duty.toList.zip s.phase.toList) := by
  have hlen : s.duty.toList.length = s.phase.toList.length := by simp
  refine ⟨?_, ?_⟩
  · rw [List.map_fst_zip hlen.le]; exact window_toList s.duty
  · rw [List.map_snd_zip hlen.ge]; exact window_toList s.phase

theorem history_append (h : List (Byte × Byte)) (ws vs : List CommandWord) :
    history h (ws ++ vs) = history (history h ws) vs := by
  induction ws generalizing h with
  | nil => rfl
  | cons w ws ih => exact ih _

/-- UPDATEs that push `v` on the stream `f` picks append that many samples `v` to it. -/
theorem history_map_of_forall_update {f : Byte × Byte → Byte} {v : Byte} {ws : List CommandWord}
    (hw : ∀ w ∈ ws, ∃ o : Byte × Byte, decode w = .update o.1 o.2 ∧ f o = v) (h : List (Byte × Byte)) :
    (history h ws).map f = h.map f ++ List.replicate ws.length v := by
  induction ws generalizing h with
  | nil => exact (List.append_nil _).symm
  | cons w ws ih =>
    obtain ⟨⟨o, ho, hv⟩, hws⟩ := List.forall_mem_cons.1 hw
    rw [history, ho, advance, ih hws, List.map_append, List.map_singleton, hv, List.append_assoc,
      List.singleton_append, List.length_cons, List.replicate_succ]

/-! ### The accumulator as a convolution (R125) -/

theorem Window.mac_eq_convolution {xs : List Byte} {L : Line} (h : Window xs L) :
    mac L = convolution xs (xs.length - 1) :=
  Finset.sum_congr rfl fun i _ => by rw [h i, Nat.mul_comm]

/-- The table is symmetric, so the sum may run backwards. -/
theorem convolution_eq_sum_rev (xs : List Byte) (n : Int) :
    convolution xs n = ∑ m : Fin 199, (K m).toNat * (sampleAt xs (n - m.val)).toNat := by
  rw [convolution, ← Equiv.sum_comp Fin.revPerm]
  refine Finset.sum_congr rfl fun m _ => ?_
  have htick : n - 198 + (m.rev.val : Int) = n - m.val := by
    rw [Fin.val_rev]; omega
  rw [Fin.revPerm_apply, K_rev, htick]

/-- Equal ticks have equal samples. -/
theorem sampleAt_congr {xs ys : List Byte} {k : Int} (h : 0 ≤ k → xs[k.toNat]? = ys[k.toNat]?) :
    sampleAt xs k = sampleAt ys k := by
  unfold sampleAt
  split_ifs with hneg
  · rfl
  · rw [List.getD_eq_getElem?_getD, List.getD_eq_getElem?_getD, h (by omega)]

/-- Lines whose windows agree on the inner 197 ticks have the same accumulator: the two end taps are 0. -/
theorem Window.mac_congr {xs ys : List Byte} {L M : Line} {n : Nat} (hL : Window xs L) (hM : Window ys M)
    (hxs : xs.length = n + 1) (hys : ys.length = n + 1)
    (h : ∀ k : Nat, k < n → n < k + 198 → xs[k]? = ys[k]?) : mac L = mac M := by
  refine mac_congr_of_inner fun i h0 h198 => ?_
  rw [hL i, hM i, hxs, hys]
  exact sampleAt_congr fun hk => h _ (by omega) (by omega)

/-! ### The impulse -/

/-- A sample followed by zeros is seen at tick 0 only. -/
theorem sampleAt_cons_replicate_zero (x : Byte) (n : Nat) (k : Int) :
    sampleAt (x :: List.replicate n 0#8) k = if k = 0 then x else 0#8 := by
  unfold sampleAt
  obtain hneg | rfl | hpos : k < 0 ∨ k = 0 ∨ 0 < k := by omega
  · rw [if_pos hneg, if_neg (by omega)]
  · rfl
  · obtain ⟨m, hm⟩ : ∃ m, k.toNat = m + 1 := ⟨k.toNat - 1, by omega⟩
    rw [if_neg (by omega), if_neg (by omega), hm, List.getD_cons_succ, List.getD_eq_getElem?_getD,
      List.getElem?_getD_replicate_default_eq]

/-- `n` ticks after the sample it stands at index `198 - n`, all else being zero. -/
theorem Window.impulse_getElem {x : Byte} {n : Nat} {L : Line} (h : Window (x :: List.replicate n 0#8) L)
    (i : Fin 199) : L[i] = if i.val + n = 198 then x else 0#8 := by
  rw [h i, sampleAt_cons_replicate_zero, List.length_cons, List.length_replicate]
  exact if_congr (by omega) rfl rfl

theorem Window.mac_impulse {x : Byte} {n : Nat} {L : Line} (h : Window (x :: List.replicate n 0#8) L)
    (hn : n < 199) : mac L = x.toNat * (K ⟨198 - n, by omega⟩).toNat := by
  have hother : ∀ i : Fin 199, i ≠ ⟨198 - n, by omega⟩ → L[i] = 0#8 := fun i hi => by
    rw [h.impulse_getElem i, if_neg fun hin => hi (Fin.ext (Nat.eq_sub_of_add_eq hin))]
  rw [mac_of_forall_ne hother, h.impulse_getElem, if_pos (Nat.sub_add_cancel (Nat.le_of_lt_succ hn))]

/-- From the 199th zero on the sample is out of the line. -/
theorem Window.impulse_gone {x : Byte} {n : Nat} {L : Line} (h : Window (x :: List.replicate n 0#8) L)
    (hn : 199 ≤ n) : L = Line.zero := by
  refine Vector.ext fun i hi => ?_
  rw [Line.zero_getElem i hi]
  exact (h.impulse_getElem ⟨i, hi⟩).trans (if_neg (by omega))

/-! ### The steady state -/

theorem mac_of_inner_eq {L : Line} {v : Byte} (h : ∀ i : Fin 199, i ≠ 0 → i ≠ 198 → L[i] = v) :
    mac L = v.toNat * 9999998 := by
  have hconst : ∀ i : Fin 199, (Vector.replicate 199 v)[i] = v := fun i => by simp
  rw [mac_congr_of_inner (M := Vector.replicate 199 v) fun i h0 h198 => (h i h0 h198).trans (hconst i).symm,
    mac_of_forall_eq hconst]

/-- A line that is `v` between its ends rounds to `v`. -/
theorem roundHalfAway_mac_of_inner_eq {L : Line} {v : Byte} (h : ∀ i : Fin 199, i ≠ 0 → i ≠ 198 → L[i] = v) :
    roundHalfAway (mac L) = v.toNat := by
  have hv := byte_toNat_le v
  rw [mac_of_inner_eq h, roundHalfAway_def, if_pos (by omega)]
  omega

/-- 197 equal samples and one more fill the line between its ends. -/
theorem Window.inner_eq {xs : List Byte} {v x : Byte} {L : Line}
    (h : Window (xs ++ List.replicate 197 v ++ [x]) L) (i : Fin 199) (h0 : i ≠ 0) (h198 : i ≠ 198) : L[i] = v := by
  have hi0 : i.val ≠ 0 := fun hi => h0 (Fin.ext hi)
  have hi198 : i.val ≠ 198 := fun hi => h198 (Fin.ext hi)
  rw [h i, List.length_append, List.length_append, List.length_replicate, List.length_singleton,
    sampleAt_append_of_lt (by rw [List.length_append, List.length_replicate]; omega), sampleAt, if_neg (by omega),
    List.getD_append_right _ _ _ _ (by omega)]
  exact List.getD_replicate _ (by omega)

theorem Window.dutyOut_eq {xs : List Byte} {v x : Byte} {L : Line}
    (h : Window (xs ++ List.replicate 197 v ++ [x]) L) : dutyOut L = v := by
  have hround := (dutyOut_toNat L).trans (roundHalfAway_mac_of_inner_eq h.inner_eq)
  exact BitVec.eq_of_toNat_eq (by exact_mod_cast hround)

/-! ### The two streams as lanes (R127) -/

/-- What one stream sees of a command word: `rst`, `en` and its own sample. -/
abbrev LaneCommand := Bool × Bool × Byte

def dutyLane (w : CommandWord) : LaneCommand := (rstBit w, enBit w, dutyField w)

def phaseLane (w : CommandWord) : LaneCommand := (rstBit w, enBit w, phaseField w)

/-- One stream's step. -/
def laneStep (L : Line) (c : LaneCommand) : Line :=
  if c.1 then Line.zero else if c.2.1 then shift L c.2.2 else L

/-- One stream's lines after each of the commands. -/
def laneRun (L : Line) : List LaneCommand → List Line
  | [] => []
  | c :: cs => laneStep L c :: laneRun (laneStep L c) cs

/-- R124's step function is one lane step for each stream. -/
theorem stepWord_eq_laneStep (lines : Line × Line) (w : CommandWord) :
    stepWord lines w = ((laneStep lines.1 (dutyLane w), laneStep lines.2 (phaseLane w)),
      (dutyOut (laneStep lines.1 (dutyLane w)), phaseOut (laneStep lines.2 (phaseLane w)))) := by
  simp only [stepWord, laneStep, dutyLane, phaseLane, clearLine_eq_zero]
  split_ifs with hrst hen
  · simp [hrst]
  · simp [hrst, hen]
  · simp [hrst, hen]

theorem map_eq_map_of_forall₂ {α β γ : Type} {f : α → γ} {g : β → γ} {l : List α} {m : List β}
    (h : List.Forall₂ (fun a b => f a = g b) l m) : l.map f = m.map g := by
  rw [← List.forall₂_eq_eq_eq, List.forall₂_map_left_iff, List.forall₂_map_right_iff]
  exact h

/-- Both outputs are the rounded accumulator. -/
theorem dutyOut_eq_phaseOut (L : Line) : dutyOut L = phaseOut L := by
  have h := (dutyOut_toNat L).trans (phaseOut_toNat L).symm
  exact BitVec.eq_of_toNat_eq (by exact_mod_cast h)

theorem runWords_map_fst (lines : Line × Line) (ws : List CommandWord) :
    (runWords lines ws).2.map Prod.fst = (laneRun lines.1 (ws.map dutyLane)).map dutyOut := by
  induction ws generalizing lines with
  | nil => rfl
  | cons w ws ih => simp only [runWords, stepWord_eq_laneStep, List.map_cons, laneRun, ih]

theorem runWords_map_snd (lines : Line × Line) (ws : List CommandWord) :
    (runWords lines ws).2.map Prod.snd = (laneRun lines.2 (ws.map phaseLane)).map phaseOut := by
  induction ws generalizing lines with
  | nil => rfl
  | cons w ws ih => simp only [runWords, stepWord_eq_laneStep, List.map_cons, laneRun, ih]

/-! ### HOLDs and zeros in a run -/

/-- Without its HOLDs a run ends in the same lines and returns the outputs of its other commands. -/
theorem runWords_filter_hold (lines : Line × Line) (ws : List CommandWord) :
    ((ws.zip (runWords lines ws).2).filter fun x => decode x.1 ≠ .hold).map Prod.snd =
      (runWords lines (ws.filter fun w => decode w ≠ .hold)).2 ∧
    (runWords lines ws).1 = (runWords lines (ws.filter fun w => decode w ≠ .hold)).1 := by
  induction ws generalizing lines with
  | nil => exact ⟨rfl, rfl⟩
  | cons w ws ih =>
    by_cases hw : decode w = .hold
    · have hstep := stepWord_of_hold hw lines
      simp only [runWords, hstep, List.zip_cons_cons, List.filter_cons, hw, ne_eq, not_true_eq_false, decide_false,
        Bool.false_eq_true, if_false]
      exact ih lines
    · obtain ⟨houts, hlines⟩ := ih (stepWord lines w).1
      simp only [runWords, List.zip_cons_cons, List.filter_cons, hw, ne_eq, not_false_eq_true, decide_true, if_true,
        List.map_cons]
      exact ⟨congrArg _ houts, hlines⟩

theorem runWords_zero_replicate (n : Nat) :
    (runWords (Line.zero, Line.zero) (List.replicate n (encode (.update 0 0)))).2 = List.replicate n (0#8, 0#8) := by
  have hstep : stepWord (Line.zero, Line.zero) (encode (.update 0 0)) = ((Line.zero, Line.zero), (0#8, 0#8)) := by
    rw [stepWord_of_update (decode_encode _)]
    simp
  induction n with
  | zero => rfl
  | succ n ih => rw [List.replicate_succ, runWords, hstep, ih, List.replicate_succ]

/-! ### The statements -/

/-- Settles O12: one step by the operation the word selects, a run by induction on the command list. -/
theorem machineIteratesTheStepFunction : Obligations.MachineIteratesTheStepFunction := by
  refine ⟨fun s w ws hc => ?_, fun ws => exists_run_eq_runWords (s := State.reset.withCommands ws) rfl⟩
  obtain ⟨t, ht⟩ := exec_total (decode w) (s.withCommands ws)
  exact ⟨t, (step_cons hc).trans ht, (stepWord_of_exec ht).symm⟩

/-- Settles O16: the mask keeps RESET's significant bit, and the cleared lines are already clear. -/
theorem resetClearsBothLines : Obligations.ResetClearsBothLines := by
  refine ⟨fun w => (decode_eq_iff w .reset).2, rfl, fun s => ⟨s.clearLines, rfl, ?_, ?_, ?_, rfl⟩⟩
  · exact fun i => Line.zero_getElem i i.isLt
  · exact fun i => Line.zero_getElem i i.isLt
  · simp [out]

/-- Settles O17: the UPDATE row selects the word, and SHIFT moves each line. -/
theorem updatePushesBothSamples : Obligations.UpdatePushesBothSamples := by
  refine ⟨fun w hw => ?_, fun d p => ?_, fun d p s => ⟨s.pushSamples d p, rfl, ?_, ?_, ?_, ?_, rfl⟩⟩
  · obtain ⟨d, p, hdp⟩ := (updateRow_selects_iff w).1 ((updateRow.selects_iff w).2 hw)
    obtain ⟨hrst, hen, -, -⟩ := (decode_eq_update_iff w d p).1 hdp
    exact (decode_eq_update_iff w _ _).2 ⟨hrst, hen, rfl, rfl⟩
  · rw [encode, Inputs.word_toNat]
    simp only [Bool.toNat_false, Bool.toNat_true]
    omega
  · exact fun i => shift_getElem_of_lt s.duty d i i.isLt
  · exact shift_getElem_last s.duty d
  · exact fun i => shift_getElem_of_lt s.phase p i i.isLt
  · exact shift_getElem_last s.phase p

/-- Settles O44: the lines at the end are the windows of the history, whose accumulators are the convolution sums. -/
theorem outputsAreTheConvolution : Obligations.OutputsAreTheConvolution := by
  intro ws
  obtain ⟨t, hrun, hduty, hphase⟩ := exists_run_reset ws
  refine ⟨t, hrun, ?_, convolution_eq_sum_rev⟩
  have hd := hduty.mac_eq_convolution
  have hp := hphase.mac_eq_convolution
  rw [List.length_map] at hd hp
  rw [← hd, ← hp]
  rfl

/-- Settles O45: the windows of both histories agree between their ends. -/
theorem outputsDependOnTheMiddleSamples : Obligations.OutputsDependOnTheMiddleSamples := by
  intro ws vs n hws hvs hmid
  obtain ⟨t, ht, htd, htp⟩ := exists_run_reset ws
  obtain ⟨u, hu, hud, hup⟩ := exists_run_reset vs
  refine ⟨t, u, ht, hu, ?_⟩
  have hmap : ∀ (f : Byte × Byte → Byte) (k : Nat), k < n → n < k + 198 →
      ((history [] ws).map f)[k]? = ((history [] vs).map f)[k]? := fun f k hk hkn => by
    rw [List.getElem?_map, List.getElem?_map, hmid k hk hkn]
  have hd : mac t.duty = mac u.duty :=
    htd.mac_congr hud (by rw [List.length_map, hws]) (by rw [List.length_map, hvs]) (hmap Prod.fst)
  have hp : mac t.phase = mac u.phase :=
    htp.mac_congr hup (by rw [List.length_map, hws]) (by rw [List.length_map, hvs]) (hmap Prod.snd)
  simp only [out, dutyOut, phaseOut, hd, hp]

/-- Settles O46: the history is the sample and `n` zeros, so the line holds the sample at index `198 - n` or not at
all. -/
theorem impulseMeetsEachTapInTurn : Obligations.ImpulseMeetsEachTapInTurn := by
  refine ⟨fun d p n => ?_, by decide +kernel, K_peak, by decide +kernel⟩
  obtain ⟨t, hrun, hduty, hphase⟩ :=
    exists_run_reset (encode (.update d p) :: List.replicate n (encode (.update 0 0)))
  have hzeros : ∀ f : Byte × Byte → Byte, f (0, 0) = 0 →
      (history [] (encode (.update d p) :: List.replicate n (encode (.update 0 0)))).map f =
        f (d, p) :: List.replicate n 0#8 := fun f hf => by
    rw [history, decode_encode, history_map_of_forall_update (v := 0) (fun w hw => ?_), List.length_replicate]
    · rfl
    · rw [List.eq_of_mem_replicate hw]
      exact ⟨(0, 0), decode_encode _, hf⟩
  rw [hzeros Prod.fst rfl] at hduty
  rw [hzeros Prod.snd rfl] at hphase
  rw [List.length_cons, List.length_replicate] at hrun
  exact ⟨t, hrun, fun h => ⟨hduty.mac_impulse h, hphase.mac_impulse h⟩,
    fun h => ⟨hduty.impulse_gone h, hphase.impulse_gone h⟩⟩

/-- Settles O47: a stream's outputs are those of its lane, and the two lanes run alike. -/
theorem streamsAreIndependentLanes : Obligations.StreamsAreIndependentLanes := by
  refine ⟨fun s s' ws ws' hs hws => ?_, fun s s' ws ws' hs hws => ?_, fun s ws hs hws => ?_⟩
  · have hlane : ws.map dutyLane = ws'.map dutyLane :=
      map_eq_map_of_forall₂ (hws.imp fun _ _ ⟨hrst, hen, hx⟩ => Prod.ext hrst (Prod.ext hen hx))
    rw [observe_withCommands, observe_withCommands, runWords_map_fst, runWords_map_fst, hlane, hs]
  · have hlane : ws.map phaseLane = ws'.map phaseLane :=
      map_eq_map_of_forall₂ (hws.imp fun _ _ ⟨hrst, hen, hx⟩ => Prod.ext hrst (Prod.ext hen hx))
    rw [observe_withCommands, observe_withCommands, runWords_map_snd, runWords_map_snd, hlane, hs]
  · have hlane : ws.map dutyLane = ws.map phaseLane :=
      List.map_congr_left fun w hw => by rw [dutyLane, phaseLane, hws w hw]
    have hout : dutyOut = phaseOut := funext dutyOut_eq_phaseOut
    apply List.map_inj_left.1
    rw [observe_withCommands, runWords_map_fst, runWords_map_snd, hlane, hs, hout]

/-- Settles O48: RESET takes any two states to the same lines. -/
theorem outputsForgetEverythingBeforeReset : Obligations.OutputsForgetEverythingBeforeReset := by
  intro s s' w ws hw
  simp only [observe_withCommands, runWords, stepWord_of_reset hw]

/-- Settles O49: any state shows some history; the commands append 197 times `v` and one sample more. -/
theorem constantInputIsReproduced : Obligations.ConstantInputIsReproduced := by
  intro s v d p ws hlen
  obtain ⟨t, hrun, hduty, hphase⟩ := State.ShowsHistory.exists_run
    (s := s.withCommands (ws ++ [encode (.update d p)])) (ws := ws ++ [encode (.update d p)]) s.showsHistory_zip rfl
  rw [history_append, history, history, decode_encode, advance, List.map_append] at hduty hphase
  rw [List.length_append, List.length_singleton, hlen] at hrun
  constructor
  · intro hws
    have hops : ∀ w ∈ ws, ∃ o : Byte × Byte, decode w = .update o.1 o.2 ∧ o.1 = v := fun w hw =>
      (hws w hw).imp' (fun q => (v, q)) fun q hq => ⟨hq, rfl⟩
    rw [history_map_of_forall_update hops, hlen] at hduty
    exact ⟨t, hrun, hduty.dutyOut_eq⟩
  · intro hws
    have hops : ∀ w ∈ ws, ∃ o : Byte × Byte, decode w = .update o.1 o.2 ∧ o.2 = v := fun w hw =>
      (hws w hw).imp' (fun q => (q, v)) fun q hq => ⟨hq, rfl⟩
    rw [history_map_of_forall_update hops, hlen] at hphase
    exact ⟨t, hrun, (dutyOut_eq_phaseOut t.phase).symm.trans hphase.dutyOut_eq⟩

/-- Settles O50: the zero lines stay zero, and their outputs are 0. -/
theorem zeroInGivesZeroOut : Obligations.ZeroInGivesZeroOut := fun n =>
  (observe_withCommands _ _).trans (runWords_zero_replicate n)

/-- Settles O51: a HOLD returns the lines it was given, so leaving it out changes nothing that follows. -/
theorem holdsLeaveTheOtherOutputsAlone : Obligations.HoldsLeaveTheOtherOutputsAlone := by
  intro s ws
  rw [observe_withCommands, observe_withCommands]
  exact runWords_filter_hold (s.duty, s.phase) ws

/-- Settles O19: the mask keeps HOLD's two significant bits, and its operation answers the state itself. -/
theorem holdChangesNothing : Obligations.HoldChangesNothing :=
  ⟨fun w => (decode_eq_iff w .hold).2, rfl, fun _ => rfl⟩

end Sys2Proof.Machine
end

section
/-! PROOFS. Exceptions (60_exceptions.md): no operation has a failing case, and RESET wins over UPDATE. -/

namespace Sys2Proof.Machine

/-- The step that takes a given word answers, because the operation the word selects does (R150). -/
theorem safe_presentNext (s : State) (w : CommandWord) : Safe (s.presentNext w) := by
  obtain ⟨t, ht⟩ := exec_total (decode w) s
  exact ⟨t, (step_presentNext s w).trans ht⟩

/-- The decoder looks at `rst` first, so `en` and the data ports have no say (R153). -/
theorem decode_word_of_rst {i : Inputs} (h : i.rst = true) : decode i.word = .reset :=
  (decode_eq_reset_iff i.word).2 ((rstBit_word i).trans h)

/-! ### The statements -/

/-- Settles O21: the ports' word decodes to RESET, whose operation leaves both lines clear. -/
theorem resetWinsOverEnable : Obligations.ResetWinsOverEnable := by
  intro s i hrst
  have hstep : step (s.presentNext i.word) = exec .reset s := by
    rw [step_presentNext, decode_word_of_rst hrst]
  obtain ⟨-, -, hreset⟩ := resetClearsBothLines
  obtain ⟨t, hexec, hduty, hphase, -⟩ := hreset s
  exact ⟨t, hstep.trans hexec, hduty, hphase⟩

/-- Settles O13: each operation answers, so each step does, and the fault type has no constructor. -/
theorem noOperationFails : Obligations.NoOperationFails :=
  ⟨exec_total, safe_presentNext, fun fault => nomatch fault⟩

end Sys2Proof.Machine
end

section
/-! PROOFS. Reading a line as it is spelled (30_encoding.md section 8; the character conventions are log entry 11):
decimal numbers, the lexemes of a spelled line, and the line they stand for. -/

namespace Sys2Proof

/-! ### Decimal numbers -/

theorem decimalValue_digitChar : ∀ v < 10, decimalValue (digitChar v) = some v := by decide

theorem isWordChar_digitChar : ∀ v < 10, isWordChar (digitChar v) = true := by decide

theorem digitChar_ne_x : ∀ v < 10, digitChar v ≠ 'x' := by decide

theorem decimalWithin_succ (fuel n : Nat) :
    decimalWithin (fuel + 1) n =
      if n < 10 then [digitChar n] else decimalWithin fuel (n / 10) ++ [digitChar (n % 10)] := rfl

/-- A decimal numeral is made of digits. -/
theorem exists_digit_of_mem_decimalWithin {fuel n : Nat} {c : Char} (h : c ∈ decimalWithin fuel n) :
    ∃ v < 10, c = digitChar v := by
  induction fuel generalizing n with
  | zero => exact ⟨n % 10, Nat.mod_lt n (by norm_num), List.mem_singleton.1 h⟩
  | succ fuel ih =>
    rw [decimalWithin_succ] at h
    split_ifs at h with hn
    · exact ⟨n, hn, List.mem_singleton.1 h⟩
    · obtain h | h := List.mem_append.1 h
      · exact ih h
      · exact ⟨n % 10, Nat.mod_lt n (by norm_num), List.mem_singleton.1 h⟩

theorem decimalWithin_ne_nil (fuel n : Nat) : decimalWithin fuel n ≠ [] := by
  cases fuel with
  | zero => exact List.cons_ne_nil _ _
  | succ fuel =>
    rw [decimalWithin_succ]
    split_ifs
    · exact List.cons_ne_nil _ _
    · exact List.append_ne_nil_of_right_ne_nil _ (List.cons_ne_nil _ _)

theorem decimal_ne_nil (n : Nat) : decimal n ≠ [] := decimalWithin_ne_nil n n

theorem numeralFrom_cons (base : Nat) (digit : Char → Option Nat) (acc : Nat) (c : Char) (cs : List Char) :
    numeralFrom base digit acc (c :: cs) = (digit c).bind fun v => numeralFrom base digit (acc * base + v) cs := by
  rw [numeralFrom]
  cases digit c with
  | none => rfl
  | some v => rfl

/-- The digits that follow are read on from the value of those before. -/
theorem numeralFrom_append (base : Nat) (digit : Char → Option Nat) (acc : Nat) (cs ds : List Char) :
    numeralFrom base digit acc (cs ++ ds) =
      (numeralFrom base digit acc cs).bind fun a => numeralFrom base digit a ds := by
  induction cs generalizing acc with
  | nil => rfl
  | cons c cs ih => simp only [List.cons_append, numeralFrom_cons, ih, Option.bind_assoc]

theorem numeralFrom_singleton_digitChar {v : Nat} (hv : v < 10) (acc : Nat) :
    numeralFrom 10 decimalValue acc [digitChar v] = some (acc * 10 + v) := by
  rw [numeralFrom_cons, decimalValue_digitChar v hv]
  rfl

/-- Enough fuel for a number is the number itself, since each digit divides it by ten. -/
theorem numeralFrom_decimalWithin {fuel n : Nat} (h : n ≤ fuel) :
    numeralFrom 10 decimalValue 0 (decimalWithin fuel n) = some n := by
  induction fuel generalizing n with
  | zero =>
    obtain rfl := Nat.le_zero.1 h
    rfl
  | succ fuel ih =>
    rw [decimalWithin_succ]
    split_ifs with hn
    · rw [numeralFrom_singleton_digitChar hn, Nat.zero_mul, Nat.zero_add]
    · rw [numeralFrom_append, ih (by omega), Option.bind_some,
        numeralFrom_singleton_digitChar (Nat.mod_lt n (by norm_num)), Nat.div_add_mod']

/-- Without an `x` a numeral is decimal. -/
theorem number_of_x_not_mem {cs : List Char} (hne : cs ≠ []) (hx : 'x' ∉ cs) :
    number cs = numeralFrom 10 decimalValue 0 cs := by
  unfold number
  split
  · exact absurd rfl hne
  · simp at hx
  · simp at hx
  · rfl

@[simp] theorem number_decimal (n : Nat) : number (decimal n) = some n := by
  have hx : 'x' ∉ decimal n := fun h => by
    obtain ⟨v, hv, hc⟩ := exists_digit_of_mem_decimalWithin h
    exact digitChar_ne_x v hv hc.symm
  rw [number_of_x_not_mem (decimal_ne_nil n) hx]
  exact numeralFrom_decimalWithin le_rfl

/-! ### Lexemes -/

/-- A lexeme that is a keyword or a number: word characters, and at least one. -/
def IsWord (cs : List Char) : Prop := cs ≠ [] ∧ ∀ c ∈ cs, isWordChar c = true

theorem isWord_decimal (n : Nat) : IsWord (decimal n) := by
  refine ⟨decimal_ne_nil n, fun c hc => ?_⟩
  obtain ⟨v, hv, rfl⟩ := exists_digit_of_mem_decimalWithin hc
  exact isWordChar_digitChar v hv

theorem isWord_kwReset : IsWord kwReset := ⟨List.cons_ne_nil _ _, List.all_eq_true.1 rfl⟩
theorem isWord_kwUpdate : IsWord kwUpdate := ⟨List.cons_ne_nil _ _, List.all_eq_true.1 rfl⟩
theorem isWord_kwHold : IsWord kwHold := ⟨List.cons_ne_nil _ _, List.all_eq_true.1 rfl⟩
theorem isWord_kwConstruct : IsWord kwConstruct := ⟨List.cons_ne_nil _ _, List.all_eq_true.1 rfl⟩
theorem isWord_kwRep : IsWord kwRep := ⟨List.cons_ne_nil _ _, List.all_eq_true.1 rfl⟩
theorem isWord_kwAlt : IsWord kwAlt := ⟨List.cons_ne_nil _ _, List.all_eq_true.1 rfl⟩

/-- A word character goes on the lexeme that is being read. -/
theorem lexFrom_cons_of_wordChar {c : Char} (hc : isWordChar c = true) (acc cs : List Char) :
    lexFrom acc (c :: cs) = lexFrom (acc ++ [c]) cs := if_pos hc

/-- Any other character ends it, and is a lexeme itself unless it is blank. -/
theorem lexFrom_cons_of_not_wordChar {c : Char} (hc : ¬ isWordChar c = true) (acc cs : List Char) :
    lexFrom acc (c :: cs) =
      flush acc ++ if c.toNat = 32 ∨ c.toNat = 9 then lexFrom [] cs else [c] :: lexFrom [] cs :=
  (if_neg hc).trans (apply_ite (flush acc ++ ·) _ _ _).symm

theorem lexFrom_wordChars_append {w : List Char} (hw : ∀ c ∈ w, isWordChar c = true) (acc cs : List Char) :
    lexFrom acc (w ++ cs) = lexFrom (acc ++ w) cs := by
  induction w generalizing acc with
  | nil => rw [List.nil_append, List.append_nil]
  | cons c w ih =>
    obtain ⟨hc, hw⟩ := List.forall_mem_cons.1 hw
    rw [List.cons_append, lexFrom_cons_of_wordChar hc, ih hw, List.append_assoc, List.singleton_append]

/-- After a word the lexemes are those of what follows it from its end on. -/
theorem lexFrom_cons_eq_flush_append {c : Char} (hc : ¬ isWordChar c = true) (acc cs : List Char) :
    lexFrom acc (c :: cs) = flush acc ++ lexFrom [] (c :: cs) := by
  rw [lexFrom_cons_of_not_wordChar hc, lexFrom_cons_of_not_wordChar hc]
  rfl

theorem IsWord.flush {w : List Char} (hw : IsWord w) : flush w = [w] :=
  if_neg (List.isEmpty_iff.not.2 hw.1)

theorem IsWord.lexFrom_self {w : List Char} (hw : IsWord w) : lexFrom [] w = [w] := by
  have h := lexFrom_wordChars_append hw.2 [] []
  rw [List.append_nil] at h
  exact h.trans hw.flush

/-- A word up to the character that ends it is one lexeme. -/
theorem IsWord.lexFrom_append {w : List Char} (hw : IsWord w) {c : Char} (hc : ¬ isWordChar c = true)
    (cs : List Char) : lexFrom [] (w ++ c :: cs) = w :: lexFrom [] (c :: cs) := by
  rw [lexFrom_wordChars_append hw.2, List.nil_append, lexFrom_cons_eq_flush_append hc, hw.flush,
    List.singleton_append]

/-- A word and a space. -/
theorem IsWord.lexFrom_space {w : List Char} (hw : IsWord w) (cs : List Char) :
    lexFrom [] (w ++ ' ' :: cs) = w :: lexFrom [] cs := hw.lexFrom_append (by decide) cs

/-- A word, a comma and a space. -/
theorem IsWord.lexFrom_comma {w : List Char} (hw : IsWord w) (cs : List Char) :
    lexFrom [] (w ++ ',' :: ' ' :: cs) = w :: [','] :: lexFrom [] cs := hw.lexFrom_append (by decide) _

/-- A word, a colon and a space. -/
theorem IsWord.lexFrom_colon {w : List Char} (hw : IsWord w) (cs : List Char) :
    lexFrom [] (w ++ ':' :: ' ' :: cs) = w :: [':'] :: lexFrom [] cs := hw.lexFrom_append (by decide) _

/-- A slash between spaces. -/
theorem lexFrom_slash (cs : List Char) : lexFrom [] ('/' :: ' ' :: cs) = ['/'] :: lexFrom [] cs := rfl

/-! ### Lines as lexemes -/

/-- The lexemes of `UPDATE d, p`. -/
def updateLexemes (d p : Nat) : List (List Char) := [kwUpdate, decimal d, [','], decimal p]

/-- The lexemes of a line as R63 and R64 spell it. -/
def TextLine.lexemes : TextLine → List (List Char)
  | .reset => [kwReset]
  | .update d p => updateLexemes d p
  | .hold => [kwHold]
  | .construct => [kwConstruct]
  | .repUpdate n d p => kwRep :: decimal n :: [':'] :: updateLexemes d p
  | .repHold n => [kwRep, decimal n, [':'], kwHold]
  | .altUpdate n d1 p1 d2 p2 =>
    kwAlt :: decimal n :: [':'] :: (updateLexemes d1 p1 ++ ['/'] :: updateLexemes d2 p2)

theorem lexFrom_spellUpdate (d p : Nat) : lexFrom [] (spellUpdate d p) = updateLexemes d p := by
  simp only [spellUpdate, List.append_assoc, List.cons_append, List.nil_append, isWord_kwUpdate.lexFrom_space,
    (isWord_decimal d).lexFrom_comma, (isWord_decimal p).lexFrom_self]
  rfl

/-- The first half of ALT. -/
theorem lexFrom_spellUpdate_space (d p : Nat) (cs : List Char) :
    lexFrom [] (spellUpdate d p ++ ' ' :: cs) = updateLexemes d p ++ lexFrom [] cs := by
  simp only [spellUpdate, List.append_assoc, List.cons_append, List.nil_append, isWord_kwUpdate.lexFrom_space,
    (isWord_decimal d).lexFrom_comma, (isWord_decimal p).lexFrom_space]
  rfl

/-- The head of REP and ALT. -/
theorem IsWord.lexFrom_count {kw : List Char} (hkw : IsWord kw) (n : Nat) (cs : List Char) :
    lexFrom [] (kw ++ ' ' :: (decimal n ++ ':' :: ' ' :: cs)) = kw :: decimal n :: [':'] :: lexFrom [] cs := by
  rw [hkw.lexFrom_space, (isWord_decimal n).lexFrom_colon]

theorem lexFrom_spell (t : TextLine) : lexFrom [] t.spell = t.lexemes := by
  cases t with
  | reset => exact isWord_kwReset.lexFrom_self
  | update d p => exact lexFrom_spellUpdate d p
  | hold => exact isWord_kwHold.lexFrom_self
  | construct => exact isWord_kwConstruct.lexFrom_self
  | repUpdate n d p =>
    simp only [TextLine.spell, List.append_assoc, List.cons_append, List.nil_append, isWord_kwRep.lexFrom_count,
      lexFrom_spellUpdate]
    rfl
  | repHold n =>
    simp only [TextLine.spell, List.append_assoc, List.cons_append, List.nil_append, isWord_kwRep.lexFrom_count,
      isWord_kwHold.lexFrom_self]
    rfl
  | altUpdate n d1 p1 d2 p2 =>
    simp only [TextLine.spell, List.append_assoc, List.cons_append, List.nil_append, isWord_kwAlt.lexFrom_count,
      lexFrom_spellUpdate_space, lexFrom_slash, lexFrom_spellUpdate]
    rfl

/-! ### Reading the lexemes -/

/-- UPDATE at the head, whatever follows it. -/
theorem readUpdate_update (d p : Nat) (rest : List (List Char)) :
    readUpdate (kwUpdate :: decimal d :: [','] :: decimal p :: rest) = some (d, p, rest) := by
  simp [readUpdate]

@[simp] theorem readUpdate_updateLexemes (d p : Nat) : readUpdate (updateLexemes d p) = some (d, p, []) :=
  readUpdate_update d p []

@[simp] theorem readUpdate_updateLexemes_append (d p : Nat) (rest : List (List Char)) :
    readUpdate (updateLexemes d p ++ rest) = some (d, p, rest) :=
  readUpdate_update d p rest

/-- Another keyword begins no UPDATE. -/
theorem readUpdate_of_ne {kw : List Char} (h : kw ≠ kwUpdate) (rest : List (List Char)) :
    readUpdate (kw :: rest) = none := by
  unfold readUpdate
  split
  · next heq =>
    obtain ⟨rfl, -⟩ := List.cons.inj heq
    rw [if_neg fun hkw => h hkw.1]
  · rfl

/-- A keyword, a count and a colon at the head: the keyword says how the rest is read. -/
theorem readLexemes_count {kw : List Char} (h : kw ≠ kwUpdate) (n : Nat) (body : List (List Char)) :
    readLexemes (kw :: decimal n :: [':'] :: body) =
      if kw = kwRep then readRep n body else if kw = kwAlt then readAlt n body else none := by
  simp [readLexemes, readUpdate_of_ne h]

/-- UPDATE's lexemes are no line of one word. -/
theorem updateLexemes_ne_singleton (d p : Nat) (w : List Char) : updateLexemes d p ≠ [w] := fun h =>
  List.cons_ne_nil _ _ (List.cons.inj h).2

theorem readLexemes_updateLexemes (d p : Nat) : readLexemes (updateLexemes d p) = some (.update d p) := by
  simp [readLexemes, updateLexemes_ne_singleton]

theorem readRep_updateLexemes (n d p : Nat) : readRep n (updateLexemes d p) = some (.repUpdate n d p) := by
  simp [readRep, updateLexemes_ne_singleton]

theorem readAlt_updateLexemes (n d1 p1 d2 p2 : Nat) :
    readAlt n (updateLexemes d1 p1 ++ ['/'] :: updateLexemes d2 p2) = some (.altUpdate n d1 p1 d2 p2) := by
  simp [readAlt]

theorem readLexemes_lexemes (t : TextLine) : readLexemes t.lexemes = some t := by
  cases t with
  | reset => rfl
  | update d p => exact readLexemes_updateLexemes d p
  | hold => rfl
  | construct => rfl
  | repUpdate n d p =>
    exact (readLexemes_count (by decide) n _).trans (readRep_updateLexemes n d p)
  | repHold n => exact readLexemes_count (by decide) n _
  | altUpdate n d1 p1 d2 p2 =>
    exact (readLexemes_count (by decide) n _).trans (readAlt_updateLexemes n d1 p1 d2 p2)

/-! ### The statement -/

/-- Settles O9: the lexemes of the spelled line are the line's, and the reader makes the line of them (log entry 11). -/
theorem readingInvertsSpelling : Obligations.ReadingInvertsSpelling := fun t => by
  rw [readLine, lexFrom_spell, readLexemes_lexemes]

end Sys2Proof
end

section
/-! PROOFS. What a run answers and what it shows (00_scope.md R5, R6), the end taps in the outputs of UPDATE (R122), the
start-up transient (70_reset_and_hazards.md section 3), the sums of the table (20_memory.md section 2), and instances
side by side (10_state.md R22, 60_exceptions.md R157): the laws of each, and after them the theorems that settle the
statements. -/

namespace Sys2Proof.Machine

/-! ### Steps and runs -/

/-- No step fails (R150). -/
theorem step_total (s : State) : ∃ t, step s = .next t := exec_total _ _

/-- A step takes the oldest command off the list and leaves the others. -/
theorem step_commands {s t : State} (h : step s = .next t) : t.commands = s.commands.tail :=
  (exec_commands h).trans (fetch_commands s)

theorem run_one (s : State) : Host.Core.run Sys2Proof.core 1 s = step s := by
  obtain ⟨t, ht⟩ := step_total s
  exact (run_of_step ht 0).trans ht.symm

/-- A run of `k` steps answers a state that has taken `k` commands off the list. -/
theorem exists_run_drop (k : Nat) (s : State) :
    ∃ t : State, Host.Core.run Sys2Proof.core k s = .next t ∧ t.commands = s.commands.drop k := by
  induction k generalizing s with
  | zero => exact ⟨s, rfl, rfl⟩
  | succ k ih =>
    obtain ⟨u, hu⟩ := step_total s
    obtain ⟨t, hrun, ht⟩ := ih u
    exact ⟨t, (run_of_step hu k).trans hrun, by rw [ht, step_commands hu, List.drop_tail]⟩

/-! ### The observation of a run (R6) -/

theorem trace_length (k : Nat) (s : State) : (trace k s).length = k := by
  induction k generalizing s with
  | zero => rfl
  | succ k ih =>
    obtain ⟨u, hu⟩ := step_total s
    rw [trace_of_step hu, List.length_cons, ih]

theorem observe_length (s : State) : (observe s).length = s.commands.length := trace_length _ s

/-- Pair `k` of a trace is the output pair of the state after `k + 1` steps. -/
theorem trace_getElem?_of_run {k n : Nat} (hk : k < n) {s t : State}
    (h : Host.Core.run Sys2Proof.core (k + 1) s = .next t) : (trace n s)[k]? = some (out t) := by
  induction n generalizing k s with
  | zero => exact absurd hk (Nat.not_lt_zero k)
  | succ n ih =>
    obtain ⟨u, hu⟩ := step_total s
    rw [run_of_step hu] at h
    rw [trace_of_step hu]
    cases k with
    | zero => cases h; rfl
    | succ k => exact ih (Nat.lt_of_succ_lt_succ hk) h

theorem observe_getElem?_of_run {k : Nat} {s t : State} (hk : k < s.commands.length)
    (h : Host.Core.run Sys2Proof.core (k + 1) s = .next t) : (observe s)[k]? = some (out t) :=
  trace_getElem?_of_run hk h

/-! ### Issuing (R5, R42) -/

/-- No operation sees the commands that wait, so issuing one more commutes with it. -/
theorem exec_issue {j : Instr} {s t : State} (h : exec j s = .next t) (i : Instr) :
    exec j (s.issue i) = .next (t.issue i) := by
  obtain ⟨rfl, rfl⟩ | ⟨d, p, rfl, rfl⟩ | ⟨rfl, rfl⟩ := exec_cases h
  · rfl
  · rfl
  · rfl

/-- While earlier commands wait, the step does not see the operation issued after them. -/
theorem step_issue_of_cons {s t : State} {w : CommandWord} {ws : List CommandWord} (hc : s.commands = w :: ws)
    (h : step s = .next t) (i : Instr) : step (s.issue i) = .next (t.issue i) := by
  have hic : (s.issue i).commands = w :: (ws ++ [encode i]) := by rw [State.issue_commands, hc, List.cons_append]
  rw [step_cons hic]
  exact exec_issue ((step_cons hc).symm.trans h) i

/-- When none waits, the operation issued is the one that runs. -/
theorem step_issue_of_nil {s : State} (hc : s.commands = []) (i : Instr) : step (s.issue i) = exec i s := by
  have hic : (s.issue i).commands = [encode i] := by rw [State.issue_commands, hc, List.nil_append]
  have hs : (s.issue i).withCommands [] = s := by rw [← hc]; rfl
  rw [step_cons hic, hs, decode_encode]

/-- The issued operation runs in the state in which the run of the earlier commands ends. -/
theorem exists_run_issue {s : State} {ws : List CommandWord} (hc : s.commands = ws) (i : Instr) :
    ∃ t : State, Host.Core.run Sys2Proof.core ws.length s = .next t ∧
      Host.Core.run Sys2Proof.core (ws.length + 1) (s.issue i) = exec i t := by
  induction ws generalizing s with
  | nil => exact ⟨s, rfl, (run_one _).trans (step_issue_of_nil hc i)⟩
  | cons w ws ih =>
    obtain ⟨u, hu⟩ := step_total s
    have huc : u.commands = ws := by rw [step_commands hu, hc, List.tail_cons]
    obtain ⟨t, hrun, hlast⟩ := ih huc
    exact ⟨t, (run_of_step hu _).trans hrun, (run_of_step (step_issue_of_cons hc hu i) _).trans hlast⟩

/-! ### The end taps in the outputs (R122) -/

/-- The outputs depend on the elements between the ends only, for the two end taps are 0. -/
theorem out_congr_of_inner {s t : State} (hd : ∀ i : Fin 199, i ≠ 0 → i ≠ 198 → s.duty[i] = t.duty[i])
    (hp : ∀ i : Fin 199, i ≠ 0 → i ≠ 198 → s.phase[i] = t.phase[i]) : out s = out t := by
  rw [out, dutyOut, phaseOut, mac_congr_of_inner hd, mac_congr_of_inner hp]
  rfl

/-- Every element but the newest is the same whatever is pushed. -/
theorem shift_getElem_congr_of_ne_last (L : Line) (x y : Byte) (i : Fin 199) (h : i ≠ 198) :
    (shift L x)[i] = (shift L y)[i] := by
  obtain ⟨j, rfl⟩ := Fin.exists_castSucc_eq.2 h
  rw [shift_getElem_castSucc, shift_getElem_castSucc]

/-- Every element but the oldest is the next one of some index. -/
theorem getElem_congr_of_ne_zero {L M : Line} (h : ∀ i : Fin 198, L[i.val + 1] = M[i.val + 1]) (i : Fin 199)
    (hi : i ≠ 0) : L[i] = M[i] := by
  obtain ⟨j, rfl⟩ := Fin.exists_succ_eq.2 hi
  exact h j

/-- A zero sample on each zero line changes nothing, whatever commands wait. -/
theorem pushSamples_zero_reset (ws : List CommandWord) :
    (State.reset.withCommands ws).pushSamples 0 0 = State.reset.withCommands ws := by
  simp [State.pushSamples, State.withCommands, State.reset]

/-! ### The start-up transient (70_reset_and_hazards.md section 3) -/

/-- A run of any number of steps carries the history shown at its start to that of the commands taken. -/
theorem State.ShowsHistory.run {h : List (Byte × Byte)} {k : Nat} {s t : State} (hs : s.ShowsHistory h)
    (hrun : Host.Core.run Sys2Proof.core k s = .next t) : t.ShowsHistory (history h (s.commands.take k)) := by
  induction k generalizing s h with
  | zero => cases hrun; exact hs
  | succ k ih =>
    obtain ⟨u, hu⟩ := step_total s
    rw [run_of_step hu] at hrun
    have hut := ih (hs.fetch.exec hu) hrun
    rw [step_commands hu] at hut
    cases hc : s.commands with
    | nil => simpa [fetch_nil s hc, hc, advance, history] using hut
    | cons w ws => simpa [fetch_cons s w ws hc, hc, history] using hut

/-- A constant input on the stream that `f` picks has a constant history. -/
theorem history_replicate_map (f : Byte × Byte → Byte) (d p : Byte) (n : Nat) :
    (history [] (List.replicate n (encode (.update d p)))).map f = List.replicate n (f (d, p)) := by
  rw [history_map_of_forall_update (v := f (d, p)) fun w hw => ⟨(d, p), ?_, rfl⟩]
  · rw [List.length_replicate]; rfl
  · rw [List.eq_of_mem_replicate hw]; exact decode_encode _

/-- Output pair `m` is that of lines which show the history of the first `m + 1` commands. -/
theorem State.ShowsHistory.exists_of_observe {s : State} {h : List (Byte × Byte)} {m : Nat} {o : Byte × Byte}
    (hs : s.ShowsHistory h) (ho : (observe s)[m]? = some o) :
    ∃ t : State, o = out t ∧ t.ShowsHistory (history h (s.commands.take (m + 1))) := by
  obtain ⟨hm, -⟩ := List.getElem?_eq_some_iff.1 ho
  rw [observe_length] at hm
  obtain ⟨t, hrun, -⟩ := exists_run_drop (m + 1) s
  exact ⟨t, Option.some_injective _ (ho.symm.trans (observe_getElem?_of_run hm hrun)), hs.run hrun⟩

/-- Output pair `m` of a constant input is that of lines which show `m + 1` times the input. -/
theorem exists_window_of_constant_input {d p : Byte} {m n : Nat} {o : Byte × Byte} (hmn : m ≤ n)
    (ho : (observe (State.reset.withCommands (List.replicate (n + 1) (encode (.update d p)))))[m]? = some o) :
    ∃ t : State, o = out t ∧ Window (List.replicate (m + 1) d) t.duty ∧
      Window (List.replicate (m + 1) p) t.phase := by
  have hreset : (State.reset.withCommands (List.replicate (n + 1) (encode (.update d p)))).ShowsHistory [] :=
    ⟨window_nil_zero, window_nil_zero⟩
  obtain ⟨t, rfl, hduty, hphase⟩ := hreset.exists_of_observe ho
  rw [State.withCommands_commands, List.take_replicate, Nat.min_eq_left (Nat.succ_le_succ hmn),
    history_replicate_map] at hduty hphase
  exact ⟨t, rfl, hduty, hphase⟩

/-- After `m + 1` equal samples the `m + 1` newest elements hold them, all else being zero. -/
theorem Window.replicate_getElem {v : Byte} {m : Nat} {L : Line} (h : Window (List.replicate (m + 1) v) L)
    (i : Fin 199) : L[i] = if 198 ≤ i.val + m then v else 0#8 := by
  rw [h i, List.length_replicate, sampleAt]
  split_ifs with hneg hle hle
  · omega
  · rfl
  · exact List.getD_replicate _ (by omega)
  · omega

/-- A line that has been fed longer holds no smaller element. -/
theorem Window.replicate_getElem_le {v : Byte} {m n : Nat} {L M : Line} (hmn : m ≤ n)
    (hL : Window (List.replicate (m + 1) v) L) (hM : Window (List.replicate (n + 1) v) M) (i : Fin 199) :
    L[i].toNat ≤ M[i].toNat := by
  rw [hL.replicate_getElem, hM.replicate_getElem]
  split_ifs with hm hn
  · exact le_rfl
  · omega
  · exact Nat.zero_le _
  · exact le_rfl

theorem mac_mono {L M : Line} (h : ∀ i : Fin 199, L[i].toNat ≤ M[i].toNat) : mac L ≤ mac M :=
  Finset.sum_le_sum fun i _ => Nat.mul_le_mul_right _ (h i)

theorem dutyOut_mono {L M : Line} (h : ∀ i : Fin 199, L[i].toNat ≤ M[i].toNat) :
    (dutyOut L).toNat ≤ (dutyOut M).toNat := by
  have hround : roundHalfAway (mac L) ≤ roundHalfAway (mac M) :=
    roundHalfAway_mono (by exact_mod_cast mac_mono h)
  rw [← dutyOut_toNat, ← dutyOut_toNat] at hround
  exact_mod_cast hround

/-- From tick 197 on the line is full between its ends, so the output is the input. -/
theorem Window.dutyOut_of_settled {v : Byte} {n : Nat} {L : Line} (hn : 197 ≤ n)
    (h : Window (List.replicate (n + 1) v) L) : dutyOut L = v := by
  have hsplit : List.replicate (n + 1) v = List.replicate (n - 197) v ++ List.replicate 197 v ++ [v] := by
    rw [List.replicate_append_replicate, Nat.sub_add_cancel hn, List.replicate_succ']
  exact Window.dutyOut_eq (hsplit ▸ h)

/-! ### The sums of the table (20_memory.md section 2) -/

theorem K_sum_even : (∑ i : Fin 199, if i.val % 2 = 0 then (K i).toNat else 0) = 5000002 := by decide +kernel

/-- The odd indices are those that are not even. -/
theorem K_sum_odd : (∑ i : Fin 199, if i.val % 2 = 1 then (K i).toNat else 0) = 4999996 := by
  have hsum : (∑ i : Fin 199, if i.val % 2 = 0 then (K i).toNat else 0) +
      (∑ i : Fin 199, if i.val % 2 = 1 then (K i).toNat else 0) = 9999998 := by
    rw [← Finset.sum_add_distrib, ← K_sum]
    refine Finset.sum_congr rfl fun i _ => ?_
    obtain h | h := Nat.mod_two_eq_zero_or_one i.val
    · simp [h]
    · simp [h]
  rw [K_sum_even] at hsum
  omega

/-- The 99 pairs share what the peak leaves of the whole sum, and the two taps of a pair are equal. -/
theorem K_sum_lower_half : ∑ i : Fin 99, (K (i.castLE (by norm_num))).toNat = 4939874 := by
  have hsum := sum_taps_eq_centre_add_pairs fun i => (K i).toNat
  simp only [K_mirror, ← two_mul, ← Finset.mul_sum, K_sum, K_peak] at hsum
  omega

theorem K_sum_below_peak : (∑ i : Fin 199, if i.val < 99 then (K i).toNat else 0) = 4939874 := by
  rw [sum_taps_eq_centre_add_pairs, if_neg (by decide), Nat.zero_add, ← K_sum_lower_half]
  refine Finset.sum_congr rfl fun i _ => ?_
  have hlow : (i.castLE (by norm_num) : Fin 199).val < 99 := i.isLt
  have hhigh : ¬ (mirror (i.castLE (by norm_num))).val < 99 := by
    rw [mirror]; simp only; omega
  rw [if_pos hlow, if_neg hhigh, Nat.add_zero]

/-! ### Instances side by side (R22, R157) -/

/-- A step of number `k` is that filter's own step and leaves the others alone. -/
theorem Bank.exists_step {n : Nat} (b : Bank n) (k : Fin n) :
    ∃ b' : Bank n, b.step k = .next b' ∧ Machine.step b[k] = .next b'[k] ∧
      ∀ j : Fin n, j ≠ k → b'[j] = b[j] := by
  obtain ⟨t, ht⟩ := step_total b[k]
  refine ⟨b.set k t, by rw [Bank.step, ht], ht.trans ?_, fun j hj => ?_⟩
  · exact congrArg _ (Vector.getElem_set_self k.isLt).symm
  · exact Vector.getElem_set_ne k.isLt j.isLt fun h => hj (Fin.ext h.symm)

theorem Bank.run_of_step {n : Nat} {b b' : Bank n} {k : Fin n} (h : b.step k = .next b') (ks : List (Fin n)) :
    b.run (k :: ks) = b'.run ks := by
  rw [Bank.run, h]

/-! ### The statements -/

/-- Settles O14: each step of the run answers, takes one command and adds its state's pair to the trace. -/
theorem observationHasOnePairPerStep : Obligations.ObservationHasOnePairPerStep := by
  refine fun s => ⟨observe_length s, fun k hk => ?_⟩
  obtain ⟨t, hrun, ht⟩ := exists_run_drop (k + 1) s
  exact ⟨t, hrun, ht, observe_getElem?_of_run hk hrun⟩

/-- Settles O15: by induction on the commands presented before it. -/
theorem issuedOperationRunsLast : Obligations.IssuedOperationRunsLast := fun _ i => exists_run_issue rfl i

/-- Settles O18: the sample pushed stands at one end and the sample evicted stood at the other, where the taps are 0. -/
theorem updateOutputIgnoresItsSample : Obligations.UpdateOutputIgnoresItsSample := by
  refine ⟨fun d p d' p' s t t' ht ht' => ?_, fun s s' hd hp => ?_, fun ws => ⟨?_, out_reset⟩⟩
  · cases ht
    cases ht'
    exact out_congr_of_inner (fun i _ h => shift_getElem_congr_of_ne_last s.duty d d' i h)
      (fun i _ h => shift_getElem_congr_of_ne_last s.phase p p' i h)
  · exact out_congr_of_inner (fun i h _ => getElem_congr_of_ne_zero hd i h)
      (fun i h _ => getElem_congr_of_ne_zero hp i h)
  · exact congrArg Host.Outcome.next (pushSamples_zero_reset ws)

/-- Settles O52: the lines fill up with the input from their newest end, and the outputs are monotone in the lines. -/
theorem stepResponseRisesToTheInput : Obligations.StepResponseRisesToTheInput := by
  intro d p m n o q hmn ho hq
  obtain ⟨t, rfl, htd, htp⟩ := exists_window_of_constant_input hmn ho
  obtain ⟨u, rfl, hud, hup⟩ := exists_window_of_constant_input le_rfl hq
  refine ⟨dutyOut_mono (htd.replicate_getElem_le hmn hud), ?_, fun hn => ?_⟩
  · rw [out, out, ← dutyOut_eq_phaseOut, ← dutyOut_eq_phaseOut]
    exact dutyOut_mono (htp.replicate_getElem_le hmn hup)
  · rw [out, ← dutyOut_eq_phaseOut, hud.dutyOut_of_settled hn, hup.dutyOut_of_settled hn]

/-- Settles O55: the bank's step writes the filter it names and no other (the bank is log entry 10's). -/
theorem instancesShareNoState : Obligations.InstancesShareNoState := fun _ b k => b.exists_step k

/-- Settles O56: by induction on the interleaving; each step counts for the one filter it names (log entry 10). -/
theorem interleavingIsUnobservable : Obligations.InterleavingIsUnobservable := by
  intro n b ks
  induction ks generalizing b with
  | nil => exact ⟨b, rfl, fun _ => rfl⟩
  | cons k ks ih =>
    obtain ⟨c, hstep, hown, hothers⟩ := b.exists_step k
    obtain ⟨b', hrun, hall⟩ := ih c
    refine ⟨b', (Bank.run_of_step hstep ks).trans hrun, fun j => ?_⟩
    by_cases hj : j = k
    · subst hj
      rw [List.count_cons_self, run_of_step hown]
      exact hall j
    · rw [List.count_cons_of_ne (Ne.symm hj), ← hothers j hj]
      exact hall j

/-- Settles O11: the step with a command presented, and the idle step, which is HOLD's (log entries 1 and 2). -/
theorem stepRunsTheDecodedOperation : Obligations.StepRunsTheDecodedOperation :=
  ⟨fun _ _ _ hc => step_cons hc, fun _ hc => step_nil hc⟩

/-- Settles O32: the sums are added up from the table, and the parameters evaluate. -/
theorem romSumsAndParameters : Obligations.RomSumsAndParameters :=
  ⟨K_sum, K_sum_even, K_sum_odd, K_sum_below_peak, rfl, K_peak.symm, rfl, rfl, rfl⟩

end Sys2Proof.Machine
end
